-- ==== Sys2Proof/Word.lean ====
section
/-! DEFINITION. The bit-vector types the spec counts in (R6 of 00_scope.md, R32 and R38 of 10_state.md and 20_memory.md). -/

namespace Sys2Proof

/-- A scratchpad byte, and a family code (R6). -/
abbrev Byte := BitVec 8

/-- A 16-bit value: the command word, the raw value, the magnitude, DECICEL (R6). -/
abbrev Word := BitVec 16

/-- The nine scratchpad bytes as the 72 bits of the port `sp_in` (R32, R38). -/
abbrev Scratchpad := BitVec 72

end Sys2Proof
end

