-- ==== Sys2Proof/Config.lean ====
section
/-! DEFINITION. What is fixed when the block is built (R7 to R10, R36, R98) and the values the spec leaves open.

An `opaque` constant has no body a proof could use: what is proved of it holds whatever it is. -/

namespace Sys2Proof

/-- The input ports besides `clk` (R32, R33), to name a free port value. -/
inductive PortName where
  | rst | cmdValid | cmd | spIn | tinSign | tinWhole | tinFrac
  deriving DecidableEq, Repr

/-- The nine registers (R19), to name a free value before the first reset. -/
inductive RegName where
  | sign | whole | frac | resValid | dcSign | decicel | dcValid | status | rspValid
  deriving DecidableEq, Repr

/-- What a port holds at the `edge`-th edge the host's list does not describe: FREE (DESIGN CHOICE, log 1; safe). -/
opaque Config.freePort (port : PortName) (edge : Nat) (width : Nat) : BitVec width

/-- What a register holds before the first reset: FREE (R95 "an unspecified value"; log 8; safe). -/
opaque Config.powerUpValue (reg : RegName) (width : Nat) : BitVec width

/-- The delegated CRC8 validators known by name only (R10): each name stands for some total function of the byte list,
about which nothing is known, and two names for two that need not agree (log 3; safe). -/
opaque Config.delegatedCrc8 (name : Nat) (bytes : List Byte) : Byte

/-- The `Crc8` the block was built with (R10, D9), as plain data. Every total function of a byte list can be configured:
`Machine.unitOfFunction` is its unit, and `Machine.crc8` is what a unit computes. -/
inductive Crc8Unit where
  /-- The spec's reference default, the Dallas/Maxim CRC-8 (`Machine.referenceCrc8`). -/
  | reference
  /-- The validator that gives the checksum listed first for a byte list, and `otherwise` for a list not listed. -/
  | table (entries : List (List Byte × Byte)) (otherwise : Byte)
  /-- A validator known by its name only: `Config.delegatedCrc8`. -/
  | delegated (name : Nat)
  deriving DecidableEq, Repr

/-- A configuration as someone may ask for it, before any check (R7 to R10). -/
structure RawConfig where
  fcLegacy : Byte
  fcConfig : Byte
  confIndex : Nat
  resLo : Nat
  crc8 : Crc8Unit
  deriving DecidableEq, Repr

/-- A configuration the model admits: R8 and R9 hold of it by construction. `Machine.configOfRaw` builds one from
a `RawConfig` and refuses the rest (R17). -/
structure Config where
  /-- FC_LEGACY (R7). -/
  fcLegacy : Byte
  /-- FC_CONFIG (R8). -/
  fcConfig : Byte
  /-- CONF_INDEX, 0..8 (R9). -/
  confIndex : Fin 9
  /-- RES_LO, 0..6 (R9). -/
  resLo : Fin 7
  /-- The CRC8 validator (R10). -/
  crc8 : Crc8Unit
  /-- FC_CONFIG differs from FC_LEGACY (R8). -/
  distinct : (fcConfig == fcLegacy) = false
  deriving DecidableEq, Repr

/-- The spec's default parameters as a request (R7, R8, R9, R10). -/
def RawConfig.default : RawConfig :=
  ⟨0x10#8, 0x28#8, 4, 5, .reference⟩

/-- The spec's default parameters (R7, R8, R9, R10), with which 95_test_vectors.md computes its vectors. -/
def Config.default : Config :=
  ⟨0x10#8, 0x28#8, 4, 5, .reference, by decide⟩

end Sys2Proof
end

