-- ==== Sys2Proof/Syntax.lean ====
section
/-! DEFINITION. The commands of the block: one constructor per row of spec/opcode_table.json (R47 of 30_encoding.md). -/

namespace Sys2Proof

/-- The four commands. FC is the only operand field of a command word (R50); DECICEL ignores it (R49), so its
constructor carries none. A word that is none of these is ILLEGAL (R48), which is no row of the table: the decoder
rejects it by name. -/
inductive Instr where
  /-- DECODE: convert without a CRC check (R65). -/
  | decode (fc : Byte)
  /-- CHKDEC: check the CRC, then convert (R66). -/
  | chkdec (fc : Byte)
  /-- DECICEL: tenths of a degree from the operands on the `tin_*` ports (R74). -/
  | decicel
  /-- CHKDECI: check the CRC, convert, and produce tenths of a degree (R75). -/
  | chkdeci (fc : Byte)
  deriving DecidableEq, Repr

end Sys2Proof
end

