-- ==== Sys2Proof/WellFormed.lean ====
section
/-! DEFINITION. Which commands and which configurations are well formed. -/

namespace Sys2Proof

/-- Every command is well formed: any of the 256 family codes is legal (R49), and there is no other operand (R50). -/
def Instr.wellFormed : Instr → Bool
  | .decode _ => true
  | .chkdec _ => true
  | .decicel => true
  | .chkdeci _ => true

/-- R8: no family code selects both branches. -/
def RawConfig.codesDistinct (r : RawConfig) : Bool := r.fcConfig != r.fcLegacy

/-- R9: CONF_INDEX lies in 0..8. -/
def RawConfig.confIndexInRange (r : RawConfig) : Bool := decide (r.confIndex ≤ 8)

/-- R9: RES_LO lies in 0..6. -/
def RawConfig.resLoInRange (r : RawConfig) : Bool := decide (r.resLo ≤ 6)

/-- The configurations the model admits (R8, R9, R17). -/
def RawConfig.wellFormed (r : RawConfig) : Bool :=
  r.codesDistinct && r.confIndexInRange && r.resLoInRange

/-- What the three checks give (R8, R9), in the form the fields of `Config` take. -/
theorem RawConfig.bounds_of_wellFormed {r : RawConfig} (h : r.wellFormed = true) :
    (r.fcConfig == r.fcLegacy) = false ∧ r.confIndex < 9 ∧ r.resLo < 7 := by
  simp only [wellFormed, codesDistinct, confIndexInRange, resLoInRange, Bool.and_eq_true,
    decide_eq_true_eq] at h
  exact ⟨by simpa [bne] using h.1.1, by omega, by omega⟩

end Sys2Proof
end

