-- ==== Sys2Proof/Decode.lean ====
section
/-! DEFINITION. The decoder, total on all command words (R46, R47 of 30_encoding.md), and after it the encoder. -/

namespace Sys2Proof

/-- Why a word is no command (R48). Both are the defined behaviour ILLEGAL of R82 when the word is accepted. -/
inductive DecodeError where
  /-- `RSV`, bits 7:3, is not zero. -/
  | reservedBits (rsv : BitVec 5)
  /-- `OP`, bits 2:0, is one of 0b000, 0b101, 0b110, 0b111. -/
  | unusedOpcode (op : BitVec 3)
  deriving DecidableEq, Repr

/-- `FC = cmd[15:8]` (R14, R46). -/
def fieldFc (w : Word) : Byte := w.extractLsb' 8 8

/-- `RSV = cmd[7:3]` (R14, R46). -/
def fieldRsv (w : Word) : BitVec 5 := w.extractLsb' 3 5

/-- `OP = cmd[2:0]` (R14, R46). -/
def fieldOp (w : Word) : BitVec 3 := w.extractLsb' 0 3

/-- R47. RSV is checked before OP (R84). -/
def decodeWord (w : Word) : Except DecodeError Instr :=
  if fieldRsv w = 0b00000#5 then
    if fieldOp w = 0b001#3 then .ok (.decode (fieldFc w))
    else if fieldOp w = 0b010#3 then .ok (.chkdec (fieldFc w))
    else if fieldOp w = 0b011#3 then .ok .decicel
    else if fieldOp w = 0b100#3 then .ok (.chkdeci (fieldFc w))
    else .error (.unusedOpcode (fieldOp w))
  else .error (.reservedBits (fieldRsv w))

/-- The instruction of an opcode-table word: `nbits` bits of `w`, those above them zero. A command is one 16-bit
word (R51), so nothing longer decodes. -/
def decodeTableWord (nbits w : Nat) : Option Instr :=
  if nbits ≤ 16 then
    match decodeWord (BitVec.ofNat 16 (w % 2 ^ nbits)) with
    | .ok i => some i
    | .error _ => none
  else none

/-- The command word of an instruction (R46, R47). DECICEL's FC bits are written 0, as the listing syntax of R52
writes them. -/
def encode : Instr → Word
  | .decode fc => fc ++ 0b00000#5 ++ 0b001#3
  | .chkdec fc => fc ++ 0b00000#5 ++ 0b010#3
  | .decicel => 0x00#8 ++ 0b00000#5 ++ 0b011#3
  | .chkdeci fc => fc ++ 0b00000#5 ++ 0b100#3

end Sys2Proof
end

