-- ==== Sys2Proof/Machine/State.lean ====
section
/-! DEFINITION. What the machine holds (R19 of 10_state.md), the inputs of an edge (R32, R33), and the state right
after reset (R96 of 70_reset_and_hazards.md). -/

namespace Sys2Proof.Machine

/-- Why a READING of the outputs has no value. No step of the block ends in one of these: the block never stops
(R80). -/
inductive Fault where
  /-- Raised by `readResult` while RES_VALID is 0 (R23: "a fault of the reading claim, not of the block"). Safe. -/
  | noResult
  /-- Raised by `readDecicel` while DC_VALID is 0 (R26). Safe. -/
  | noDecicel
  deriving DecidableEq, Repr

/-- What the model gives no meaning to. -/
inductive Refusal where
  /-- Raised by an arm of `exec` whose instruction has no meaning yet. Safe. No arm is left so. -/
  | notModelled (mnemonic : String)
  /-- Raised by `State.build` for a configuration that breaks R8 or R9 (R17). Safe. -/
  | badConfiguration
  deriving DecidableEq, Repr

/-- What the input ports hold as sampled at one rising edge of `clk` (R32, R33). -/
structure Inputs where
  /-- `rst`: synchronous reset, active high. -/
  rst : BitVec 1
  /-- `cmd_valid`: 1 means `cmd` holds a command to accept at this edge. -/
  cmdValid : BitVec 1
  /-- `cmd`: the command word (R46). -/
  cmd : Word
  /-- `sp_in`: the nine scratchpad bytes (R38). -/
  spIn : Scratchpad
  /-- `tin_sign`: DECICEL's sign operand, 1 = negative. -/
  tinSign : BitVec 1
  /-- `tin_whole`: DECICEL's whole degrees, unsigned. -/
  tinWhole : BitVec 12
  /-- `tin_frac`: DECICEL's fractional code, 1/16 °C units. -/
  tinFrac : BitVec 4
  deriving DecidableEq, Repr

/-- The block's nine registers (R19), its configuration (R36), and the environment that drives its ports. -/
structure State where
  /-- SIGN (R20). -/
  sign : BitVec 1
  /-- WHOLE (R21). -/
  whole : BitVec 12
  /-- FRAC (R22). -/
  frac : BitVec 4
  /-- RES_VALID (R23). -/
  resValid : BitVec 1
  /-- DC_SIGN (R24). -/
  dcSign : BitVec 1
  /-- DECICEL (R25). -/
  decicel : BitVec 16
  /-- DC_VALID (R26). -/
  dcValid : BitVec 1
  /-- STATUS (R27). -/
  status : BitVec 2
  /-- RSP_VALID (R29). -/
  rspValid : BitVec 1
  /-- The parameters, fixed when the block is built (R36, R98; log 2). No step changes it. -/
  cfg : Config
  /-- MODEL'S OWN: the edges to come, oldest first (R106; DESIGN CHOICE, log 1). -/
  host : List Inputs
  /-- MODEL'S OWN: how many edges have sampled free port values (DESIGN CHOICE, log 1). -/
  draw : Nat
  deriving DecidableEq, Repr

/-- The reset state (R96), of the block with the spec's default parameters (log 2), nothing scripted (log 4). -/
def State.reset : State where
  sign := 0#1
  whole := 0x000#12
  frac := 0x0#4
  resValid := 0#1
  dcSign := 0#1
  decicel := 0x0000#16
  dcValid := 0#1
  status := 0b00#2
  rspValid := 0#1
  cfg := Config.default
  host := []
  draw := 0

end Sys2Proof.Machine
end

