-- ==== Sys2Proof/Machine/Operands.lean ====
section
/-! DEFINITION. The operand forms: the scratchpad input space (R38 to R42 of 20_memory.md), its raw value, and the
resolution field of the configuration byte (R60 of 40_decode.md). -/

namespace Sys2Proof.Machine

/-- `SP[i] = sp_in[8i+7:8i]`, the spec's `MemRead(i, 1)` (R38). The index is 0..8, so no read is out of range
(R41, R43). -/
def spByte (sp : Scratchpad) (i : Fin 9) : Byte := sp.extractLsb' (8 * i.val) 8

/-- The raw value, the spec's `MemRead(0, 2) = SP[1] ++ SP[0]` (R40, R55). -/
def spRaw (sp : Scratchpad) : Word := spByte sp 1 ++ spByte sp 0

/-- The nine bytes in index order, as the CRC check sees them (R40, R62). -/
def spBytes (sp : Scratchpad) : List Byte := (List.finRange 9).map (spByte sp)

/-- `Resolution(conf) = 9 + r` with `r = conf[RES_LO+1 : RES_LO]` (R60). -/
def resolution (resLo : Fin 7) (conf : Byte) : Nat := 9 + (conf.extractLsb' resLo.val 2).toNat

/-- `ResMask(res) = 0xFFFF << (12 - res)` (R61). -/
def resMask (res : Nat) : Word := 0xFFFF#16 <<< (12 - res)

end Sys2Proof.Machine
end

