-- ==== Sys2Proof/Machine/Crc.lean ====
section
/-! DEFINITION. The delegated CRC8 validator (R10 of 00_scope.md) and the CRC predicate (R62 of 40_decode.md). -/

namespace Sys2Proof.Machine

/-- One bit of the reflected CRC-8 with polynomial 0x8C, least significant bit first (R10). -/
def crcBit (crc : Byte) : Byte :=
  if crc.extractLsb' 0 1 = 1#1 then (crc >>> 1) ^^^ 0x8C#8 else crc >>> 1

/-- One byte of the reference CRC: eight bits after the byte is added in (R10). -/
def crcByte (crc byte : Byte) : Byte :=
  crcBit (crcBit (crcBit (crcBit (crcBit (crcBit (crcBit (crcBit (crc ^^^ byte))))))))

/-- The reference default of `Crc8`: initial value 0x00, no final XOR (R10). -/
def referenceCrc8 (bytes : List Byte) : Byte := bytes.foldl crcByte 0x00#8

/-- The checksum a table gives a byte list: that of its first entry for the list, or `otherwise`. -/
def tableCrc8 (entries : List (List Byte × Byte)) (otherwise : Byte) (bytes : List Byte) : Byte :=
  match entries with
  | [] => otherwise
  | (key, checksum) :: rest => if key = bytes then checksum else tableCrc8 rest otherwise bytes

/-- The validator the block was built with, applied to a byte list (R10). -/
def crc8 (unit : Crc8Unit) (bytes : List Byte) : Byte :=
  match unit with
  | .reference => referenceCrc8 bytes
  | .table entries otherwise => tableCrc8 entries otherwise bytes
  | .delegated name => Config.delegatedCrc8 name bytes

/-- All 256 bytes. -/
def allBytes : List Byte := (List.range 256).map (BitVec.ofNat 8)

/-- The table of `f` over every list of `n` bytes followed by `tail`. -/
def tableOf (f : List Byte → Byte) : (n : Nat) → (tail : List Byte) → List (List Byte × Byte)
  | 0, tail => [(tail, f tail)]
  | n + 1, tail => allBytes.flatMap (fun b => tableOf f n (b :: tail))

/-- The unit of an arbitrary `Crc8 : List (BitVec 8) -> BitVec 8` (R10, R36): its table over all nine-byte lists, the only
lists the block applies it to. -/
def unitOfFunction (f : List Byte → Byte) : Crc8Unit := .table (tableOf f 9 []) 0x00#8

/-- `CrcOk(SP)`: the checksum of all nine bytes is zero (R62, C2). -/
def crcOk (c : Config) (sp : Scratchpad) : Bool := crc8 c.crc8 (spBytes sp) == 0x00#8

end Sys2Proof.Machine
end

