-- ==== Sys2Proof/Machine/Flags.lean ====
section
/-! DEFINITION. The status codes (R27 of 10_state.md, R81 of 60_exceptions.md), the sign step (R59 of 40_decode.md)
and the rounding set (R11, R71 of 41_decicel.md). -/

namespace Sys2Proof.Machine

/-- STATUS 0b00, no command accepted since reset (R27). -/
def statusNone : BitVec 2 := 0b00#2

/-- STATUS 0b01, the last command completed and wrote its results (R27). -/
def statusOk : BitVec 2 := 0b01#2

/-- STATUS 0b10, the last command's CRC check failed (R27). -/
def statusCrcMismatch : BitVec 2 := 0b10#2

/-- STATUS 0b11, the last command word was none of the four commands (R27). -/
def statusIllegal : BitVec 2 := 0b11#2

/-- The sign flag of step 3 (R59): bit 15 of the value after step 2. -/
def signFlag (v : Word) : BitVec 1 := v.extractLsb' 15 1

/-- The magnitude of step 3 (R59): a value whose sign bit is set is negated by complement and one. -/
def magnitude (v : Word) : Word := if signFlag v = 1#1 then ~~~v + 0x0001#16 else v

/-- ROUND_UP (R11): the fractional codes that a positive reading rounds up. -/
def roundUpCodes : List Nat := [1, 3, 4, 6, 9, 11, 12, 14]

/-- R71: one tenth more, for a positive reading whose fractional code is in the set. -/
def roundingTenth (sign : BitVec 1) (frac : BitVec 4) : Nat :=
  if sign = 0#1 ∧ frac.toNat ∈ roundUpCodes then 1 else 0

end Sys2Proof.Machine
end

