-- ==== Sys2Proof/Machine/MeasToCel.lean ====
section
/-! DEFINITION. The conversion function `MeasToCel` (R55 to R64 of 40_decode.md). -/

namespace Sys2Proof.Machine

/-- The decomposed form `{sign, whole-degrees, fractional-code}` (R15). -/
structure Reading where
  sign : BitVec 1
  whole : BitVec 12
  frac : BitVec 4
  deriving DecidableEq, Repr

/-- Step 2, legacy extended precision (R57): bit 0 dropped, scaled to 1/16 °C in 16 bits, and the correction
`(16 - SP[6]) - 4` added modulo 2^16. -/
def legacyValue (raw : Word) (countRemaining : Byte) : Word :=
  ((raw &&& 0xFFFE#16) <<< 3) + ((0x0010#16 - countRemaining.zeroExtend 16) - 0x0004#16)

/-- The value after step 2: the raw value but for the legacy variant (R56, R58). -/
def stepTwoValue (c : Config) (fc : Byte) (sp : Scratchpad) : Word :=
  if fc = c.fcLegacy then legacyValue (spRaw sp) (spByte sp 6) else spRaw sp

/-- The magnitude after step 4: masked for the configurable variant, after the sign step (R56, R61). -/
def maskedMagnitude (c : Config) (fc : Byte) (sp : Scratchpad) (m : Word) : Word :=
  if fc = c.fcConfig then m &&& resMask (resolution c.resLo (spByte sp c.confIndex)) else m

/-- `MeasToCel(fc, SP)` (R56), in the source's step order. It never fails. -/
def measToCel (c : Config) (fc : Byte) (sp : Scratchpad) : Reading :=
  let v := stepTwoValue c fc sp
  let m := maskedMagnitude c fc sp (magnitude v)
  { sign := signFlag v, whole := m.extractLsb' 4 12, frac := m.extractLsb' 0 4 }

end Sys2Proof.Machine
end

