-- ==== Sys2Proof/Machine/Ops.lean ====
section
/-! DEFINITION. The named operations over the registers and the ports: sampling an edge (R13, R30), writing the two
result groups (R19), ending a command with a status code (R13, R80), reset (R94 to R96), the outputs (R34), and the
reads that have no value before a first result (R23, R26). The block has no memory to write (R38). -/

namespace Sys2Proof.Machine

/-! ### The edge's inputs -/

/-- The inputs of an edge the host's list does not describe: every port holds a free value (log 1). -/
def freeInputs (edge : Nat) : Inputs where
  rst := Config.freePort .rst edge 1
  cmdValid := Config.freePort .cmdValid edge 1
  cmd := Config.freePort .cmd edge 16
  spIn := Config.freePort .spIn edge 72
  tinSign := Config.freePort .tinSign edge 1
  tinWhole := Config.freePort .tinWhole edge 12
  tinFrac := Config.freePort .tinFrac edge 4

/-- What the ports hold at the coming edge. Every read a command makes sees this one sample (R13, R42). -/
def State.inputs (s : State) : Inputs :=
  match s.host with
  | [] => freeInputs s.draw
  | e :: _ => e

/-- The environment moves on to the edge after this one. The block's registers and parameters stay. -/
def nextEdge (s : State) : State :=
  match s.host with
  | [] => { s with draw := s.draw + 1 }
  | _ :: rest => { s with host := rest }

/-- What the step adds around a command: the environment moves on. -/
def advance : Host.Outcome State Fault Refusal → Host.Outcome State Fault Refusal
  | .next s => .next (nextEdge s)
  | .fault f => .fault f
  | .refused r => .refused r

/-- The ports of an edge that presents the command word `w`, the operand ports as `e` has them. -/
def Inputs.withCommand (e : Inputs) (w : Word) : Inputs :=
  { e with rst := 0#1, cmdValid := 1#1, cmd := w }

/-- An edge with every port at 0. -/
def Inputs.zero : Inputs := ⟨0#1, 0#1, 0x0000#16, 0#72, 0#1, 0#12, 0#4⟩

/-! ### Register writes -/

/-- Write the result group {SIGN, WHOLE, FRAC, RES_VALID} (R16, R19, R23). -/
def writeResult (s : State) (sign : BitVec 1) (whole : BitVec 12) (frac : BitVec 4) : State :=
  { s with sign := sign, whole := whole, frac := frac, resValid := 1#1 }

/-- Write the decicel group {DC_SIGN, DECICEL, DC_VALID} (R16, R19, R26). -/
def writeDecicel (s : State) (sign : BitVec 1) (tenths : Word) : State :=
  { s with dcSign := sign, decicel := tenths, dcValid := 1#1 }

/-- What every accepted command does: it writes STATUS (R27) and raises the strobe (R29). -/
def respond (s : State) (code : BitVec 2) : State :=
  { s with status := code, rspValid := 1#1 }

/-- A command that completed: STATUS is OK (R81). -/
def complete (s : State) : State := respond s statusOk

/-- `raise E`, the block's only form of taking an exception: STATUS <- E and the strobe, and no other register
(R13, R80, R85). There is no return from one (R86). -/
def raise (s : State) (code : BitVec 2) : State := respond s code

/-! ### Edges that accept no command -/

/-- An edge with `rst = 1` (R94, R96): every register takes its reset value. The parameters are not reset (R98). -/
def applyReset (s : State) : State :=
  { s with
    sign := 0#1, whole := 0x000#12, frac := 0x0#4, resValid := 0#1
    dcSign := 0#1, decicel := 0x0000#16, dcValid := 0#1
    status := statusNone, rspValid := 0#1 }

/-- An idle edge (R30, case 3): only the strobe changes. -/
def applyIdle (s : State) : State := { s with rspValid := 0#1 }

/-! ### What the host sees -/

/-- The output ports (R34). -/
structure Outputs where
  sign_o : BitVec 1
  whole_o : BitVec 12
  frac_o : BitVec 4
  res_valid_o : BitVec 1
  dc_sign_o : BitVec 1
  decicel_o : BitVec 16
  dc_valid_o : BitVec 1
  status_o : BitVec 2
  rsp_valid_o : BitVec 1
  deriving DecidableEq, Repr

/-- Each output port is a plain copy of a register (R34). -/
def State.outputs (s : State) : Outputs where
  sign_o := s.sign
  whole_o := s.whole
  frac_o := s.frac
  res_valid_o := s.resValid
  dc_sign_o := s.dcSign
  decicel_o := s.decicel
  dc_valid_o := s.dcValid
  status_o := s.status
  rsp_valid_o := s.rspValid

/-- SIGN, WHOLE and FRAC read as a conversion result: no value while RES_VALID is 0 (R23; log 7). -/
def readResult (s : State) : Except Fault (BitVec 1 × BitVec 12 × BitVec 4) :=
  if s.resValid = 1#1 then .ok (s.sign, s.whole, s.frac) else .error .noResult

/-- DC_SIGN and DECICEL read as a conversion result: no value while DC_VALID is 0 (R26; log 7). -/
def readDecicel (s : State) : Except Fault (BitVec 1 × BitVec 16) :=
  if s.dcValid = 1#1 then .ok (s.dcSign, s.decicel) else .error .noDecicel

/-- The combined signed value a host computes from the outputs (R76). The block has no register for it. -/
def signedDecicel (s : State) : Int :=
  if s.dcSign = 1#1 then -(s.decicel.toNat : Int) else (s.decicel.toNat : Int)

/-! ### Building and powering the block -/

/-- The configuration boundary (R17, U12): a configuration that breaks R8 or R9 is refused. -/
def configOfRaw (r : RawConfig) : Except Refusal Config :=
  if ok : r.wellFormed = true then
    let bounds := RawConfig.bounds_of_wellFormed ok
    .ok ⟨r.fcLegacy, r.fcConfig, ⟨r.confIndex, bounds.2.1⟩, ⟨r.resLo, bounds.2.2⟩, r.crc8, bounds.1⟩
  else .error .badConfiguration

/-- The block built with the asked parameters, right after reset (R17, R96, R98). -/
def State.build (r : RawConfig) : Host.Outcome State Fault Refusal :=
  match configOfRaw r with
  | .ok c => .next { State.reset with cfg := c }
  | .error e => .refused e

/-- The block after power is applied and before the first edge with `rst = 1`: every register is free (R95; log 8). -/
def State.powerUp (c : Config) (host : List Inputs) : State where
  sign := Config.powerUpValue .sign 1
  whole := Config.powerUpValue .whole 12
  frac := Config.powerUpValue .frac 4
  resValid := Config.powerUpValue .resValid 1
  dcSign := Config.powerUpValue .dcSign 1
  decicel := Config.powerUpValue .decicel 16
  dcValid := Config.powerUpValue .dcValid 1
  status := Config.powerUpValue .status 2
  rspValid := Config.powerUpValue .rspValid 1
  cfg := c
  host := host
  draw := 0

end Sys2Proof.Machine
end

