-- ==== Sys2Proof/Machine/DecodeFamily.lean ====
section
/-! DEFINITION. The decode family: DECODE and CHKDEC (R65, R66 of 40_decode.md). -/

namespace Sys2Proof.Machine

/-- Write the result group with the reading of the sampled scratchpad (R65, R66, R75). -/
def writeReading (s : State) (r : Reading) : State := writeResult s r.sign r.whole r.frac

/-- DECODE (R65): convert without a CRC check. -/
def execDecode (fc : Byte) (s : State) : Host.Outcome State Fault Refusal :=
  .next (complete (writeReading s (measToCel s.cfg fc s.inputs.spIn)))

/-- CHKDEC (R66): on a CRC mismatch only the status is written (R83); else as DECODE. -/
def execChkdec (fc : Byte) (s : State) : Host.Outcome State Fault Refusal :=
  .next (
    if crcOk s.cfg s.inputs.spIn then
      complete (writeReading s (measToCel s.cfg fc s.inputs.spIn))
    else raise s statusCrcMismatch)

end Sys2Proof.Machine
end

