-- ==== Sys2Proof/Machine/TempToDecicel.lean ====
section
/-! DEFINITION. The conversion function `TempToDecicel` (R68 to R73 of 41_decicel.md). -/

namespace Sys2Proof.Machine

/-- The tenths digit before compensation (R69), with FRACCONV and DIV of R11. -/
def tenthsDigit (frac : BitVec 4) : Nat := frac.toNat * 625 / 1000

/-- `TempToDecicel(sign, whole, frac)` (R68): exact on naturals, then 16 bits (R73: nothing is lost). -/
def tempToDecicel (sign : BitVec 1) (whole : BitVec 12) (frac : BitVec 4) : Word :=
  BitVec.ofNat 16 (whole.toNat * 10 + tenthsDigit frac + roundingTenth sign frac)

end Sys2Proof.Machine
end

