-- ==== Sys2Proof/Machine/DecicelFamily.lean ====
section
/-! DEFINITION. The decicelsius family: DECICEL and CHKDECI (R74, R75 of 41_decicel.md). -/

namespace Sys2Proof.Machine

/-- Write the decicel group with the tenths of a decomposed reading (R74, R75). -/
def writeTenths (s : State) (r : Reading) : State :=
  writeDecicel s r.sign (tempToDecicel r.sign r.whole r.frac)

/-- DECICEL (R74): the operands come from the `tin_*` ports (R33), never from the registers. -/
def execDecicel (s : State) : Host.Outcome State Fault Refusal :=
  .next (complete (writeTenths s ⟨s.inputs.tinSign, s.inputs.tinWhole, s.inputs.tinFrac⟩))

/-- CHKDECI (R75): on a CRC mismatch only the status is written (R83); else both groups, the decicel group from the
fresh reading. -/
def execChkdeci (fc : Byte) (s : State) : Host.Outcome State Fault Refusal :=
  let r := measToCel s.cfg fc s.inputs.spIn
  .next (
    if crcOk s.cfg s.inputs.spIn then complete (writeTenths (writeReading s r) r)
    else raise s statusCrcMismatch)

end Sys2Proof.Machine
end

