-- ==== Sys2Proof/Machine/Dispatch.lean ====
section
/-! DEFINITION. The meaning of every command: one arm per constructor of Instr. -/

namespace Sys2Proof.Machine

/-- What an accepted command does at its edge (R30, case 2). -/
def exec (i : Instr) (s : State) : Host.Outcome State Fault Refusal :=
  match i with
  | .decode fc => Sys2Proof.Machine.execDecode fc s
  | .chkdec fc => Sys2Proof.Machine.execChkdec fc s
  | .decicel => Sys2Proof.Machine.execDecicel s
  | .chkdeci fc => Sys2Proof.Machine.execChkdeci fc s

end Sys2Proof.Machine
end

