-- ==== Sys2Proof/Machine/Illegal.lean ====
section
/-! DEFINITION. The behaviour of an accepted word that is no command (R48 of 30_encoding.md, R82 of
60_exceptions.md). -/

namespace Sys2Proof.Machine

/-- ILLEGAL (R82): no operand is read and only STATUS and the strobe are written. -/
def execIllegal (s : State) : Host.Outcome State Fault Refusal := .next (raise s statusIllegal)

end Sys2Proof.Machine
end

