-- ==== Sys2Proof/Machine/Step.lean ====
section
/-! DEFINITION. One rising edge of `clk` (R30 of 10_state.md), and how a word is placed for it. -/

namespace Sys2Proof.Machine

/-- One rising edge (R30, R84): reset, else an accepted command word, else an idle cycle. -/
def step (s : State) : Host.Outcome State Fault Refusal :=
  if s.inputs.rst = 1#1 then advance (.next (applyReset s))
  else if s.inputs.cmdValid = 1#1 then
    match decodeWord s.inputs.cmd with
    | .ok i => advance (exec i s)
    | .error _ => advance (execIllegal s)
  else advance (.next (applyIdle s))

/-- `s` with the command word `w` presented at its coming edge (log 4): the first listed edge presents it, its operand
ports as they are; where no edge is listed, one is listed with operand ports of zeros. -/
def State.withFetchWord (s : State) (nbits w : Nat) : State :=
  let word := BitVec.ofNat 16 (w % 2 ^ nbits)
  match s.host with
  | [] => { s with host := [Inputs.zero.withCommand word] }
  | e :: rest => { s with host := e.withCommand word :: rest }

end Sys2Proof.Machine
end

