-- ==== Sys2Proof/Machine/Listing.lean ====
section
/-! DEFINITION. The listing syntax of the spec (R52, R53 of 30_encoding.md): one line is the inputs of one edge. -/

namespace Sys2Proof.Machine

/-- A line of a listing (R52), its operands as they are written there. -/
inductive Line where
  /-- `RESET`. -/
  | reset
  /-- `IDLE`. -/
  | idle
  /-- `DECODE fc, [b0 ... b8]`. -/
  | decode (fc : Byte) (bytes : List Byte)
  /-- `CHKDEC fc, [b0 ... b8]`. -/
  | chkdec (fc : Byte) (bytes : List Byte)
  /-- `DECICEL s, w, f`. -/
  | decicel (s w f : Nat)
  /-- `CHKDECI fc, [b0 ... b8]`. -/
  | chkdeci (fc : Byte) (bytes : List Byte)
  /-- `.word 0xNNNN`. -/
  | word (w : Word)
  /-- `.word 0xNNNN, [b0 ... b8]`. -/
  | wordWith (w : Word) (bytes : List Byte)
  deriving DecidableEq, Repr

/-- A bracketed byte list names all nine bytes (R52). -/
def nineBytes (bytes : List Byte) : Bool := bytes.length == 9

/-- R52: `s` is 0 or 1, `w` is 0..4095, `f` is 0..15, and a byte list has nine bytes. -/
def lineWellFormed : Line → Bool
  | .reset => true
  | .idle => true
  | .decode _ bytes => nineBytes bytes
  | .chkdec _ bytes => nineBytes bytes
  | .decicel s w f => decide (s ≤ 1) && decide (w ≤ 4095) && decide (f ≤ 15)
  | .chkdeci _ bytes => nineBytes bytes
  | .word _ => true
  | .wordWith _ bytes => nineBytes bytes

/-- The port value whose byte `i` is the `i`-th of the list (R38, R52). -/
def packBytes (bytes : List Byte) : Scratchpad :=
  bytes.foldr (fun b acc => (acc <<< 8) ||| b.zeroExtend 72) 0#72

/-- The inputs of a line's edge. A port the line says nothing of is as `e` has it (log 11). -/
def lineInputs (e : Inputs) : Line → Inputs
  | .reset => { e with rst := 1#1 }
  | .idle => { e with rst := 0#1, cmdValid := 0#1 }
  | .decode fc bytes => { e.withCommand (encode (.decode fc)) with spIn := packBytes bytes }
  | .chkdec fc bytes => { e.withCommand (encode (.chkdec fc)) with spIn := packBytes bytes }
  | .decicel s w f =>
    { e.withCommand (encode .decicel) with
      tinSign := BitVec.ofNat 1 s, tinWhole := BitVec.ofNat 12 w, tinFrac := BitVec.ofNat 4 f }
  | .chkdeci fc bytes => { e.withCommand (encode (.chkdeci fc)) with spIn := packBytes bytes }
  | .word w => e.withCommand w
  | .wordWith w bytes => { e.withCommand w with spIn := packBytes bytes }

/-- The pseudo-instructions (R53), each one line of R52. -/
inductive Pseudo where
  | decodeL (bytes : List Byte)
  | decodeC (bytes : List Byte)
  | chkdecL (bytes : List Byte)
  | chkdecC (bytes : List Byte)
  | chkdeciL (bytes : List Byte)
  | chkdeciC (bytes : List Byte)
  | nop
  deriving DecidableEq, Repr

/-- What a pseudo-instruction stands for (R53): `.L` names FC_LEGACY, `.C` names FC_CONFIG, `NOP` is `IDLE`. -/
def expand (c : Config) : Pseudo → Line
  | .decodeL bytes => .decode c.fcLegacy bytes
  | .decodeC bytes => .decode c.fcConfig bytes
  | .chkdecL bytes => .chkdec c.fcLegacy bytes
  | .chkdecC bytes => .chkdec c.fcConfig bytes
  | .chkdeciL bytes => .chkdeci c.fcLegacy bytes
  | .chkdeciC bytes => .chkdeci c.fcConfig bytes
  | .nop => .idle

end Sys2Proof.Machine
end

