-- ==== Sys2Proof/Safety.lean ====
section
/-! DEFINITION. What a claim may rely on: the relations between registers that every edge keeps, what the host may read,
and which registers a command may write. -/

namespace Sys2Proof.Safety

open Sys2Proof.Machine

/-- The result group at its reset values (R23, R96). -/
def resultAtReset (s : State) : Prop := s.sign = 0#1 ∧ s.whole = 0x000#12 ∧ s.frac = 0x0#4

/-- The decicel group's data at its reset values (R26, R96). -/
def decicelAtReset (s : State) : Prop := s.dcSign = 0#1 ∧ s.decicel = 0x0000#16

/-- The invariant of the nine registers. -/
structure Inv (s : State) : Prop where
  /-- R23: while RES_VALID is 0 the result group holds its reset values. -/
  noResult : s.resValid = 0#1 → resultAtReset s
  /-- R26: while DC_VALID is 0 the decicel group holds its reset values. -/
  noDecicel : s.dcValid = 0#1 → decicelAtReset s
  /-- R21, R63: WHOLE is at most 0x800. -/
  wholeBound : s.whole.toNat ≤ 0x800
  /-- R63: WHOLE is 0x800 only for the reading (1, 0x800, 0). -/
  wholeTop : s.whole = 0x800#12 → s.frac = 0x0#4 ∧ s.sign = 1#1
  /-- R25, R73: DECICEL is at most 40959. -/
  decicelBound : s.decicel.toNat ≤ 40959
  /-- R27, R81: NONE means that no command was accepted since reset, so nothing was written. -/
  noneMeansFresh : s.status = statusNone → s.resValid = 0#1 ∧ s.dcValid = 0#1 ∧ s.rspValid = 0#1
  /-- R27: OK means that the last command wrote its results, so one of the groups is valid. -/
  okMeansWritten : s.status = statusOk → s.resValid = 1#1 ∨ s.dcValid = 1#1

/-- The coming edge accepts a command: it was sampled with `cmd_valid = 1` and `rst = 0` (R16). -/
def accepts (s : State) : Prop := s.inputs.rst = 0#1 ∧ s.inputs.cmdValid = 1#1

/-- Two states whose blocks are built alike and that face the same ports from here on. -/
def sameOutside (s s' : State) : Prop := s.cfg = s'.cfg ∧ s.host = s'.host ∧ s.draw = s'.draw

/-- The result group is the same in both states. -/
def sameResult (s s' : State) : Prop :=
  s.sign = s'.sign ∧ s.whole = s'.whole ∧ s.frac = s'.frac ∧ s.resValid = s'.resValid

/-- The decicel group is the same in both states. -/
def sameDecicel (s s' : State) : Prop :=
  s.dcSign = s'.dcSign ∧ s.decicel = s'.decicel ∧ s.dcValid = s'.dcValid

/-- The command is one that writes the result group when it passes (R19, "written by"). -/
def writesResult : Instr → Bool
  | .decode _ => true
  | .chkdec _ => true
  | .decicel => false
  | .chkdeci _ => true

/-- The command is one that writes the decicel group when it passes (R19, "written by"). -/
def writesDecicel : Instr → Bool
  | .decode _ => false
  | .chkdec _ => false
  | .decicel => true
  | .chkdeci _ => true

/-- The command is gated by the CRC check (R66, R75). -/
def crcGated : Instr → Bool
  | .decode _ => false
  | .chkdec _ => true
  | .decicel => false
  | .chkdeci _ => true

/-- `MeasToCel` reads the byte `i` for this family code (R56, R64). -/
def readsByte (c : Config) (fc : Byte) (i : Fin 9) : Prop :=
  i = 0 ∨ i = 1 ∨ (fc = c.fcLegacy ∧ i = 6) ∨ (fc = c.fcConfig ∧ i = c.confIndex)

end Sys2Proof.Safety
end

