-- ==== Sys2Proof/Certificates/Slice0/Obligations.lean ====
section
/-! DEFINITION. The statements for the provers, in the order of the spec's files. Each docstring names the rules. -/

open Sys2Proof Sys2Proof.Machine Sys2Proof.Safety

/-! ### Configuration and reset (00_scope.md, 70_reset_and_hazards.md) -/

/-- R7, R8, R9: the defaults, which `State.reset` has. That the reset state has the defaults is the model's choice
(log 2). -/
def Obligations.ResetHasTheDefaultParameters : Prop :=
  State.build RawConfig.default = .next State.reset ∧
  State.reset.cfg.fcLegacy = 0x10#8 ∧ State.reset.cfg.fcConfig = 0x28#8 ∧
  State.reset.cfg.confIndex.val = 4 ∧ State.reset.cfg.resLo.val = 5

/-- R8, R9, R17: the only refusals are at the configuration boundary, and every other configuration is built as
asked. -/
def Obligations.BadConfigurationIsRefused : Prop :=
  ∀ r : RawConfig,
    (State.build r = .refused .badConfiguration ↔
      r.fcConfig = r.fcLegacy ∨ 8 < r.confIndex ∨ 6 < r.resLo) ∧
    (¬(r.fcConfig = r.fcLegacy ∨ 8 < r.confIndex ∨ 6 < r.resLo) →
      ∃ c : Config, State.build r = .next { State.reset with cfg := c } ∧
        c.fcLegacy = r.fcLegacy ∧ c.fcConfig = r.fcConfig ∧ c.confIndex.val = r.confIndex ∧
        c.resLo.val = r.resLo ∧ c.crc8 = r.crc8)

/-- R96: no register is left unspecified after reset. -/
def Obligations.ResetStateRegisters : Prop :=
  State.reset.sign = 0#1 ∧ State.reset.whole = 0x000#12 ∧ State.reset.frac = 0x0#4 ∧
  State.reset.resValid = 0#1 ∧ State.reset.dcSign = 0#1 ∧ State.reset.decicel = 0x0000#16 ∧
  State.reset.dcValid = 0#1 ∧ State.reset.status = 0b00#2 ∧ State.reset.rspValid = 0#1

/-- R94, R96: an edge with `rst = 1` gives every register its reset value, whatever the registers and the other ports
hold; the parameters stay. -/
def Obligations.ResetEdgeClearsEveryRegister : Prop :=
  ∀ s : State, s.inputs.rst = 1#1 →
    ∃ t : State, step s = .next t ∧
      t.sign = 0#1 ∧ t.whole = 0x000#12 ∧ t.frac = 0x0#4 ∧ t.resValid = 0#1 ∧
      t.dcSign = 0#1 ∧ t.decicel = 0x0000#16 ∧ t.dcValid = 0#1 ∧
      t.status = 0b00#2 ∧ t.rspValid = 0#1 ∧ t.cfg = s.cfg

/-- R94, R95, R99: after one reset edge nothing of the registers before it can be seen, ever: two blocks built alike
that face the same ports run alike, the block at power-up (every register free) among them. -/
def Obligations.ResetErasesThePast : Prop :=
  (∀ (k : Nat) (s s' : State), sameOutside s s' → s.inputs.rst = 1#1 →
    Host.Core.run core (k + 1) s = Host.Core.run core (k + 1) s') ∧
  (∀ (k : Nat) (c : Config) (e : Inputs) (rest : List Inputs), e.rst = 1#1 →
    Host.Core.run core (k + 1) (State.powerUp c (e :: rest)) =
      Host.Core.run core (k + 1) { State.reset with cfg := c, host := e :: rest })

/-- R36, R98: the parameters are fixed: no edge changes them. -/
def Obligations.ParametersAreFixed : Prop :=
  ∀ (k : Nat) (s t : State), Host.Core.run core k s = .next t → t.cfg = s.cfg

/-! ### State and the edge (10_state.md) -/

/-- R30, case 3: an idle edge changes RSP_VALID alone; around it the environment moves on. -/
def Obligations.IdleEdgeOnlyDropsTheStrobe : Prop :=
  ∀ s : State, s.inputs.rst = 0#1 → s.inputs.cmdValid = 0#1 →
    step s = .next (nextEdge { s with rspValid := 0#1 })

/-- R30, case 2: an edge that accepts a word that decodes runs exactly that command, and then the environment moves
on (`nextEdge`, the model's own: log 1). -/
def Obligations.StepRunsTheDecodedCommand : Prop :=
  ∀ (s : State) (i : Instr), accepts s → decodeWord s.inputs.cmd = .ok i → i.wellFormed = true →
    step s = advance (exec i s) ∧
    ∀ t : State, exec i s = .next t → step s = .next (nextEdge t)

/-- The model's own rule of the environment (log 1): an edge uses up one listed edge, and where none is listed it
samples the next free one. -/
def Obligations.EdgeConsumesOneInput : Prop :=
  ∀ s t : State, step s = .next t →
    t.host = s.host.tail ∧ t.draw = (if s.host.isEmpty then s.draw + 1 else s.draw)

/-- R37, R80: the block accepts at every edge: it neither refuses nor stops. -/
def Obligations.EveryEdgeAnswersANextState : Prop :=
  ∀ s : State, ∃ t : State, step s = .next t

/-- R29: RSP_VALID is 1 after exactly the edges that accept a command word, ILLEGAL ones included. -/
def Obligations.StrobeMarksAcceptedWords : Prop :=
  ∀ s t : State, step s = .next t →
    (accepts s → t.rspValid = 1#1) ∧ (¬accepts s → t.rspValid = 0#1)

/-- R23, R26: only reset clears a valid bit, and only a command that writes the group sets it. -/
def Obligations.ValidBitsFollowTheWrites : Prop :=
  ∀ s t : State, step s = .next t →
    (s.inputs.rst = 1#1 → t.resValid = 0#1 ∧ t.dcValid = 0#1) ∧
    (s.inputs.rst = 0#1 → s.resValid = 1#1 → t.resValid = 1#1) ∧
    (s.inputs.rst = 0#1 → s.dcValid = 1#1 → t.dcValid = 1#1) ∧
    (t.resValid = 1#1 → s.resValid = 1#1 ∨
      (accepts s ∧ ∃ i : Instr, decodeWord s.inputs.cmd = .ok i ∧ writesResult i = true ∧
        (crcGated i = true → crcOk s.cfg s.inputs.spIn = true))) ∧
    (t.dcValid = 1#1 → s.dcValid = 1#1 ∨
      (accepts s ∧ ∃ i : Instr, decodeWord s.inputs.cmd = .ok i ∧ writesDecicel i = true ∧
        (crcGated i = true → crcOk s.cfg s.inputs.spIn = true)))

/-- R23, R26: a read of a result whose valid bit is 0 reads no value. -/
def Obligations.UnwrittenResultsReadNoValue : Prop :=
  ∀ s : State,
    (s.resValid = 0#1 → readResult s = .error .noResult) ∧
    (s.resValid = 1#1 → readResult s = .ok (s.sign, s.whole, s.frac)) ∧
    (s.dcValid = 0#1 → readDecicel s = .error .noDecicel) ∧
    (s.dcValid = 1#1 → readDecicel s = .ok (s.dcSign, s.decicel))

/-- R34: each output port is a plain copy of a register. -/
def Obligations.OutputsCopyTheRegisters : Prop :=
  ∀ s : State,
    s.outputs.sign_o = s.sign ∧ s.outputs.whole_o = s.whole ∧ s.outputs.frac_o = s.frac ∧
    s.outputs.res_valid_o = s.resValid ∧ s.outputs.dc_sign_o = s.dcSign ∧
    s.outputs.decicel_o = s.decicel ∧ s.outputs.dc_valid_o = s.dcValid ∧
    s.outputs.status_o = s.status ∧ s.outputs.rsp_valid_o = s.rspValid

/-- R19 ("written by"), R31: the frame of the four commands. A command that does not write a group, or fails its CRC
check, leaves the group; none changes the parameters or the ports. -/
def Obligations.CommandFrame : Prop :=
  ∀ (i : Instr) (s t : State), exec i s = .next t →
    (writesResult i = false ∨ (crcGated i = true ∧ crcOk s.cfg s.inputs.spIn = false) →
      sameResult s t) ∧
    (writesDecicel i = false ∨ (crcGated i = true ∧ crcOk s.cfg s.inputs.spIn = false) →
      sameDecicel s t) ∧
    t.cfg = s.cfg ∧ t.host = s.host ∧ t.draw = s.draw ∧ t.inputs = s.inputs

/-- R31: no command depends on the registers a previous command left: with the same ports and parameters, each register
group ends up the same or is left unwritten by both. -/
def Obligations.CommandsReadOnlyTheInputs : Prop :=
  ∀ (i : Instr) (s s' t t' : State), sameOutside s s' →
    exec i s = .next t → exec i s' = .next t' →
    t.status = t'.status ∧ t.rspValid = t'.rspValid ∧
    (sameResult t t' ∨ (sameResult s t ∧ sameResult s' t')) ∧
    (sameDecicel t t' ∨ (sameDecicel s t ∧ sameDecicel s' t'))

/-- R32, R44: the inputs of later edges have no effect on the state after the earlier ones. -/
def Obligations.LaterInputsHaveNoEffect : Prop :=
  ∀ (k : Nat) (s t : State) (later : List Inputs), k ≤ s.host.length →
    Host.Core.run core k s = .next t →
    Host.Core.run core k { s with host := s.host.take k ++ later } = .next { t with host := later }

/-! ### Invariant -/

/-- The invariant of the registers holds right after reset (R96). -/
def Obligations.ResetMeetsTheInvariant : Prop := Inv State.reset

/-- R21, R23, R25, R26, R27, R63: the invariant of the nine registers is kept by every edge, from every state that
meets it. -/
def Obligations.EveryEdgeKeepsTheInvariant : Prop :=
  ∀ s t : State, Inv s → step s = .next t → Inv t

/-! ### Scratchpad (20_memory.md) -/

/-- R38, R40: byte `i` is bits 8i+7:8i of the port, and the raw value is little-endian. -/
def Obligations.ScratchpadByteOrder : Prop :=
  ∀ sp : Scratchpad,
    (∀ i : Fin 9, (spByte sp i).toNat = sp.toNat / 256 ^ i.val % 256) ∧
    (spRaw sp).toNat = (spByte sp 1).toNat * 256 + (spByte sp 0).toNat

/-! ### Encoding (30_encoding.md) -/

/-- R47: decoding is total on all words, by the opcode map, its match and mask columns, and its count. -/
def Obligations.DecodingFollowsTheOpcodeMap : Prop :=
  (∀ w : Word,
    (w.toNat / 8 % 32 ≠ 0 → decodeWord w = .error (.reservedBits (BitVec.ofNat 5 (w.toNat / 8)))) ∧
    (w.toNat % 256 = 1 → decodeWord w = .ok (.decode (BitVec.ofNat 8 (w.toNat / 256)))) ∧
    (w.toNat % 256 = 2 → decodeWord w = .ok (.chkdec (BitVec.ofNat 8 (w.toNat / 256)))) ∧
    (w.toNat % 256 = 3 → decodeWord w = .ok .decicel) ∧
    (w.toNat % 256 = 4 → decodeWord w = .ok (.chkdeci (BitVec.ofNat 8 (w.toNat / 256)))) ∧
    (w.toNat % 256 ∈ [0, 5, 6, 7] →
      decodeWord w = .error (.unusedOpcode (BitVec.ofNat 3 w.toNat)))) ∧
  (∀ w : Word,
    ((∃ fc, decodeWord w = .ok (.decode fc)) ↔ w &&& 0x00FF#16 = 0x0001#16) ∧
    ((∃ fc, decodeWord w = .ok (.chkdec fc)) ↔ w &&& 0x00FF#16 = 0x0002#16) ∧
    (decodeWord w = .ok .decicel ↔ w &&& 0x00FF#16 = 0x0003#16) ∧
    ((∃ fc, decodeWord w = .ok (.chkdeci fc)) ↔ w &&& 0x00FF#16 = 0x0004#16)) ∧
  Nat.count (fun n => (decodeTableWord 16 n).isSome = true) (2 ^ 16) = 1024

/-- R46, R47, R52: decoding an encoded command gives it back, and encoding a decoded word gives the word back, but for
DECICEL's ignored FC bits (R49), which the listing syntax writes 0. -/
def Obligations.DecodeAndEncodeAgree : Prop :=
  (∀ i : Instr, i.wellFormed = true → decodeWord (encode i) = .ok i) ∧
  (∀ (w : Word) (i : Instr), decodeWord w = .ok i →
    encode i = if i = .decicel then w &&& 0x00FF#16 else w)

/-- R53 and the vectors V-E19 and V-I1 to V-I5: words written out from the encoding. -/
def Obligations.WrittenOutWordsDecode : Prop :=
  decodeWord 0x1001#16 = .ok (.decode 0x10#8) ∧ decodeWord 0x2801#16 = .ok (.decode 0x28#8) ∧
  decodeWord 0x1002#16 = .ok (.chkdec 0x10#8) ∧ decodeWord 0x2802#16 = .ok (.chkdec 0x28#8) ∧
  decodeWord 0x1004#16 = .ok (.chkdeci 0x10#8) ∧ decodeWord 0x2804#16 = .ok (.chkdeci 0x28#8) ∧
  decodeWord 0x0003#16 = .ok .decicel ∧ decodeWord 0xFF03#16 = .ok .decicel ∧
  decodeWord 0x0007#16 = .error (.unusedOpcode 7#3) ∧
  decodeWord 0x0000#16 = .error (.unusedOpcode 0#3) ∧
  decodeWord 0x2809#16 = .error (.reservedBits 1#5) ∧
  decodeWord 0x28FC#16 = .error (.reservedBits 31#5) ∧
  decodeWord 0x1005#16 = .error (.unusedOpcode 5#3)

/-- R30, R46, R52: a well-formed scratchpad line is accepted (`rst = 0`, `cmd_valid = 1`) and presents its command with
its bytes in order, and a well-formed DECICEL line is accepted and presents its three operands. -/
def Obligations.ListingLinesPresentTheirOperands : Prop :=
  (∀ (e : Inputs) (fc : Byte) (bytes : List Byte), nineBytes bytes = true →
    ((lineInputs e (.decode fc bytes)).rst = 0#1 ∧ (lineInputs e (.decode fc bytes)).cmdValid = 1#1 ∧
      decodeWord (lineInputs e (.decode fc bytes)).cmd = .ok (.decode fc) ∧
      spBytes (lineInputs e (.decode fc bytes)).spIn = bytes) ∧
    ((lineInputs e (.chkdec fc bytes)).rst = 0#1 ∧ (lineInputs e (.chkdec fc bytes)).cmdValid = 1#1 ∧
      decodeWord (lineInputs e (.chkdec fc bytes)).cmd = .ok (.chkdec fc) ∧
      spBytes (lineInputs e (.chkdec fc bytes)).spIn = bytes) ∧
    ((lineInputs e (.chkdeci fc bytes)).rst = 0#1 ∧ (lineInputs e (.chkdeci fc bytes)).cmdValid = 1#1 ∧
      decodeWord (lineInputs e (.chkdeci fc bytes)).cmd = .ok (.chkdeci fc) ∧
      spBytes (lineInputs e (.chkdeci fc bytes)).spIn = bytes)) ∧
  (∀ (e : Inputs) (s w f : Nat), lineWellFormed (.decicel s w f) = true →
    (lineInputs e (.decicel s w f)).rst = 0#1 ∧ (lineInputs e (.decicel s w f)).cmdValid = 1#1 ∧
    (lineInputs e (.decicel s w f)).cmd = 0x0003#16 ∧
    (lineInputs e (.decicel s w f)).tinSign.toNat = s ∧
    (lineInputs e (.decicel s w f)).tinWhole.toNat = w ∧
    (lineInputs e (.decicel s w f)).tinFrac.toNat = f)

/-- R52: the other lines: RESET asserts `rst`, IDLE presents nothing, and `.word` presents the raw word, with its nine
bytes in order where it lists them. -/
def Obligations.ControlAndRawWordLines : Prop :=
  ∀ (e : Inputs) (w : Word) (bytes : List Byte),
    (lineInputs e .reset).rst = 1#1 ∧
    ((lineInputs e .idle).rst = 0#1 ∧ (lineInputs e .idle).cmdValid = 0#1) ∧
    ((lineInputs e (.word w)).rst = 0#1 ∧ (lineInputs e (.word w)).cmdValid = 1#1 ∧
      (lineInputs e (.word w)).cmd = w) ∧
    (nineBytes bytes = true →
      (lineInputs e (.wordWith w bytes)).rst = 0#1 ∧ (lineInputs e (.wordWith w bytes)).cmdValid = 1#1 ∧
      (lineInputs e (.wordWith w bytes)).cmd = w ∧ spBytes (lineInputs e (.wordWith w bytes)).spIn = bytes)

/-- R53: what each pseudo-instruction stands for, and the words the six scratchpad ones assemble to with the default
parameters. -/
def Obligations.PseudoInstructionsExpand : Prop :=
  (∀ (c : Config) (bytes : List Byte),
    expand c (.decodeL bytes) = .decode c.fcLegacy bytes ∧
    expand c (.decodeC bytes) = .decode c.fcConfig bytes ∧
    expand c (.chkdecL bytes) = .chkdec c.fcLegacy bytes ∧
    expand c (.chkdecC bytes) = .chkdec c.fcConfig bytes ∧
    expand c (.chkdeciL bytes) = .chkdeci c.fcLegacy bytes ∧
    expand c (.chkdeciC bytes) = .chkdeci c.fcConfig bytes ∧
    expand c .nop = .idle) ∧
  (∀ (e : Inputs) (bytes : List Byte),
    (lineInputs e (expand Config.default (.decodeL bytes))).cmd = 0x1001#16 ∧
    (lineInputs e (expand Config.default (.decodeC bytes))).cmd = 0x2801#16 ∧
    (lineInputs e (expand Config.default (.chkdecL bytes))).cmd = 0x1002#16 ∧
    (lineInputs e (expand Config.default (.chkdecC bytes))).cmd = 0x2802#16 ∧
    (lineInputs e (expand Config.default (.chkdeciL bytes))).cmd = 0x1004#16 ∧
    (lineInputs e (expand Config.default (.chkdeciC bytes))).cmd = 0x2804#16)

/-! ### The decode family (40_decode.md) -/

/-- R57, R59, R63 on the legacy branch (R58): `v` is `raw[12:1] ++ 0000` plus 12 minus SP[6], modulo 2^16; the sign is
that of `v`, not of the raw value; the magnitude is split without loss. -/
def Obligations.LegacyReading : Prop :=
  ∀ (c : Config) (sp : Scratchpad),
    let raw := (spByte sp 1).toNat * 256 + (spByte sp 0).toNat
    let v := (raw / 2 % 4096 * 16 + 65536 + 12 - (spByte sp 6).toNat) % 65536
    let r := measToCel c c.fcLegacy sp
    (v < 32768 → r.sign = 0#1 ∧ 16 * r.whole.toNat + r.frac.toNat = v) ∧
    (32768 ≤ v → r.sign = 1#1 ∧ 16 * r.whole.toNat + r.frac.toNat = 65536 - v)

/-- R59, R60, R61, R63 on the configurable branch (R58): the sign is the raw value's, and the low `3 - r` bits of the
magnitude are cleared, `r` being the two bits at RES_LO of the configuration byte. -/
def Obligations.ConfigurableReading : Prop :=
  ∀ (c : Config) (sp : Scratchpad),
    let raw := (spByte sp 1).toNat * 256 + (spByte sp 0).toNat
    let unit := 2 ^ (3 - (spByte sp c.confIndex).toNat / 2 ^ c.resLo.val % 4)
    let r := measToCel c c.fcConfig sp
    (raw < 32768 → r.sign = 0#1 ∧ 16 * r.whole.toNat + r.frac.toNat = raw / unit * unit) ∧
    (32768 ≤ raw → r.sign = 1#1 ∧
      16 * r.whole.toNat + r.frac.toNat = (65536 - raw) / unit * unit)

/-- R58, R59, R63, and R67 (b): a family code that is neither variant reads the raw value as it is. -/
def Obligations.PassThroughReading : Prop :=
  ∀ (c : Config) (fc : Byte) (sp : Scratchpad), fc ≠ c.fcLegacy → fc ≠ c.fcConfig →
    let raw := (spByte sp 1).toNat * 256 + (spByte sp 0).toNat
    let r := measToCel c fc sp
    (raw < 32768 → r.sign = 0#1 ∧ 16 * r.whole.toNat + r.frac.toNat = raw) ∧
    (32768 ≤ raw → r.sign = 1#1 ∧ 16 * r.whole.toNat + r.frac.toNat = 65536 - raw)

/-- R67 (a): at a resolution of `res` bits the `12 - res` low fractional bits are zero, for any raw value. -/
def Obligations.ReducedResolutionClearsLowBits : Prop :=
  ∀ (c : Config) (sp : Scratchpad),
    (measToCel c c.fcConfig sp).frac.toNat %
      2 ^ (12 - resolution c.resLo (spByte sp c.confIndex)) = 0

/-- R63: the range of WHOLE and FRAC, with 0x800 reached only as (1, 0x800, 0). -/
def Obligations.ReadingRange : Prop :=
  ∀ (c : Config) (fc : Byte) (sp : Scratchpad),
    (measToCel c fc sp).whole.toNat ≤ 0x800 ∧ (measToCel c fc sp).frac.toNat ≤ 15 ∧
    ((measToCel c fc sp).whole = 0x800#12 →
      (measToCel c fc sp).frac = 0x0#4 ∧ (measToCel c fc sp).sign = 1#1)

/-- R64: scratchpads that differ only in bytes the conversion ignores give the same reading. -/
def Obligations.IgnoredBytesDoNotMatter : Prop :=
  ∀ (c : Config) (fc : Byte) (sp sp' : Scratchpad),
    (∀ i : Fin 9, readsByte c fc i → spByte sp i = spByte sp' i) →
    measToCel c fc sp = measToCel c fc sp'

/-- R61 (b): with the default parameters at 9 bits, raw 0xFFF8 reads as -0.5 and raw 0xFFFF as negative zero. -/
def Obligations.MaskingCanGiveNegativeZero : Prop :=
  measToCel Config.default 0x28#8 0x53100CFF1F464BFFF8#72 = ⟨1#1, 0#12, 8#4⟩ ∧
  measToCel Config.default 0x28#8 0x83100CFF1F464BFFFF#72 = ⟨1#1, 0#12, 0#4⟩

/-- R62: the check runs over all nine bytes in order and passes iff the checksum is zero. -/
def Obligations.CrcChecksAllNineBytes : Prop :=
  ∀ (c : Config) (sp : Scratchpad),
    crcOk c sp = true ↔
      crc8 c.crc8 [spByte sp 0, spByte sp 1, spByte sp 2, spByte sp 3, spByte sp 4, spByte sp 5,
        spByte sp 6, spByte sp 7, spByte sp 8] = 0x00#8

/-- R10, R36, R62: `Crc8` is a parameter of function type: for EVERY total function of a byte list, whatever the other
parameters, the block can be built with it, and the check then passes iff that function gives the nine bytes 0x00. -/
def Obligations.EveryCrc8CanBeConfigured : Prop :=
  ∀ (f : List Byte → Byte) (r : RawConfig), r.wellFormed = true →
    ∃ c : Config, State.build { r with crc8 := unitOfFunction f } = .next { State.reset with cfg := c } ∧
      c.fcLegacy = r.fcLegacy ∧ c.fcConfig = r.fcConfig ∧ c.confIndex.val = r.confIndex ∧
      c.resLo.val = r.resLo ∧
      ∀ sp : Scratchpad,
        crc8 c.crc8 (spBytes sp) = f (spBytes sp) ∧
        (crcOk c sp = true ↔ f (spBytes sp) = 0x00#8)

/-- C2 of 90_conflicts.md: for the reference CRC the two forms of the check coincide. -/
def Obligations.ReferenceCrcMatchesLastByte : Prop :=
  ∀ (c : Config) (sp : Scratchpad), c.crc8 = .reference →
    (crcOk c sp = true ↔ referenceCrc8 ((spBytes sp).take 8) = spByte sp 8)

/-- R67 (c): with the reference CRC, every change of the trailing byte alone of a good scratchpad is caught. -/
def Obligations.CorruptedTrailingByteIsCaught : Prop :=
  ∀ (c : Config) (sp sp' : Scratchpad), c.crc8 = .reference →
    (∀ i : Fin 9, i ≠ 8 → spByte sp i = spByte sp' i) → spByte sp 8 ≠ spByte sp' 8 →
    crcOk c sp = true → crcOk c sp' = false

/-- R66 and V-C2, V-C3: nine zero bytes pass the reference CRC; the byte list of V-C2 fails with 0x5E. -/
def Obligations.ReferenceCrcOnKnownLists : Prop :=
  referenceCrc8 [0, 0, 0, 0, 0, 0, 0, 0, 0] = 0x00#8 ∧
  referenceCrc8 [0x91, 0x01, 0x4B, 0x46, 0x7F, 0xFF, 0x0F, 0x10, 0x24] = 0x5E#8 ∧
  crcOk Config.default 0#72 = true ∧ crcOk Config.default 0x25100FFF7F464B0191#72 = true

/-- R65: DECODE answers the next state in which the result group is the reading, STATUS is OK, the strobe is 1, and all
else is as before, whatever the CRC; with its worked example V-D1. -/
def Obligations.DecodeWritesTheReading : Prop :=
  (∀ (fc : Byte) (s : State),
    let r := measToCel s.cfg fc s.inputs.spIn
    exec (.decode fc) s = .next
      { s with
        sign := r.sign, whole := r.whole, frac := r.frac, resValid := 1#1
        status := 0b01#2, rspValid := 1#1 }) ∧
  measToCel Config.default 0x28#8 0x25100FFF7F464B0191#72 = ⟨0#1, 25#12, 1#4⟩

/-- R66: CHKDEC does as DECODE if the CRC check passes, and otherwise writes only STATUS and the strobe; with the
worked example V-C2. -/
def Obligations.ChkdecIsGatedByTheCrc : Prop :=
  (∀ (fc : Byte) (s : State),
    let r := measToCel s.cfg fc s.inputs.spIn
    exec (.chkdec fc) s = .next
      (if crcOk s.cfg s.inputs.spIn = true then
        { s with
          sign := r.sign, whole := r.whole, frac := r.frac, resValid := 1#1
          status := 0b01#2, rspValid := 1#1 }
      else { s with status := 0b10#2, rspValid := 1#1 })) ∧
  crcOk Config.default 0x24100FFF7F464B0191#72 = false ∧
  crcOk Config.default 0#72 = true ∧ measToCel Config.default 0x28#8 0#72 = ⟨0#1, 0#12, 0#4⟩

/-! ### The decicelsius family (41_decicel.md) -/

/-- R68, R69, R70, R71: the magnitude in tenths is exact: ten times the whole degrees, the floor of the fraction's
tenths, and one more for a positive reading whose code is in the set. -/
def Obligations.TenthsAreExact : Prop :=
  ∀ (sign : BitVec 1) (whole : BitVec 12) (frac : BitVec 4),
    (tempToDecicel sign whole frac).toNat =
      10 * whole.toNat + 625 * frac.toNat / 1000 +
        (if sign = 0#1 ∧ frac.toNat ∈ [1, 3, 4, 6, 9, 11, 12, 14] then 1 else 0)

/-- R72: the complete table of tenths digits, positive and negative. -/
def Obligations.TenthsTable : Prop :=
  ∀ (whole : BitVec 12) (frac : BitVec 4),
    (tempToDecicel 0#1 whole frac).toNat =
      10 * whole.toNat + [0, 1, 1, 2, 3, 3, 4, 4, 5, 6, 6, 7, 8, 8, 9, 9].getD frac.toNat 0 ∧
    (tempToDecicel 1#1 whole frac).toNat =
      10 * whole.toNat + [0, 0, 1, 1, 2, 3, 3, 4, 5, 5, 6, 6, 7, 8, 8, 9].getD frac.toNat 0

/-- R73: at most 40959 for all operands; from a reading at most 20480, and 20479 for a positive one; each bound is
reached, the two on the decode path by the scratchpads of V-X3 and V-X4. -/
def Obligations.TenthsRange : Prop :=
  (∀ (sign : BitVec 1) (whole : BitVec 12) (frac : BitVec 4),
    (tempToDecicel sign whole frac).toNat ≤ 40959) ∧
  (∀ (c : Config) (fc : Byte) (sp : Scratchpad),
    let r := measToCel c fc sp
    (tempToDecicel r.sign r.whole r.frac).toNat ≤ 20480 ∧
    (r.sign = 0#1 → (tempToDecicel r.sign r.whole r.frac).toNat ≤ 20479)) ∧
  tempToDecicel 0#1 4095#12 15#4 = 40959#16 ∧
  (measToCel Config.default 0x28#8 0x5F100CFF7F464B8000#72 = ⟨1#1, 0x800#12, 0#4⟩ ∧
    tempToDecicel 1#1 0x800#12 0#4 = 20480#16) ∧
  (measToCel Config.default 0x28#8 0x84100CFF7F464B7FFF#72 = ⟨0#1, 0x7FF#12, 15#4⟩ ∧
    tempToDecicel 0#1 0x7FF#12 15#4 = 20479#16)

/-- R78: the rounding set rounds positive readings up by exactly one tenth over the floor; every other code and every
negative reading gives the floor. -/
def Obligations.RoundingIsPositiveOnly : Prop :=
  ∀ (whole : BitVec 12) (frac : BitVec 4),
    (tempToDecicel 1#1 whole frac).toNat = 10 * whole.toNat + 625 * frac.toNat / 1000 ∧
    (frac.toNat ∈ [1, 3, 4, 6, 9, 11, 12, 14] →
      (tempToDecicel 0#1 whole frac).toNat = (tempToDecicel 1#1 whole frac).toNat + 1) ∧
    (frac.toNat ∉ [1, 3, 4, 6, 9, 11, 12, 14] →
      tempToDecicel 0#1 whole frac = tempToDecicel 1#1 whole frac)

/-- R79: with T the exact magnitude in 1/16 °C, a positive result is within 0.05 °C of it and a negative one at most
0.1 °C below it. In units of 1/80 °C, a tenth is 8 and a sixteenth is 5. -/
def Obligations.TenthsAccuracy : Prop :=
  ∀ (whole : BitVec 12) (frac : BitVec 4),
    let exact := 5 * (16 * whole.toNat + frac.toNat)
    let pos := 8 * (tempToDecicel 0#1 whole frac).toNat
    let neg := 8 * (tempToDecicel 1#1 whole frac).toNat
    (pos ≤ exact + 4 ∧ exact ≤ pos + 4) ∧ (neg ≤ exact ∧ exact < neg + 8)

/-- R74: DECICEL answers the next state in which the decicel group is the conversion of the `tin_*` operands, STATUS is
OK, the strobe is 1, and all else is as before; with its worked example W2. -/
def Obligations.DecicelConvertsThePorts : Prop :=
  (∀ s : State,
    exec .decicel s = .next
      { s with
        decicel := tempToDecicel s.inputs.tinSign s.inputs.tinWhole s.inputs.tinFrac
        dcSign := s.inputs.tinSign, dcValid := 1#1
        status := 0b01#2, rspValid := 1#1 }) ∧
  tempToDecicel 0#1 28#12 15#4 = 289#16

/-- R75: CHKDECI, if the CRC check passes, writes both groups from the fresh reading, and otherwise only STATUS and the
strobe; with its worked example V-X2. -/
def Obligations.ChkdeciWritesBothGroups : Prop :=
  (∀ (fc : Byte) (s : State),
    let r := measToCel s.cfg fc s.inputs.spIn
    exec (.chkdeci fc) s = .next
      (if crcOk s.cfg s.inputs.spIn = true then
        { s with
          sign := r.sign, whole := r.whole, frac := r.frac, resValid := 1#1
          decicel := tempToDecicel r.sign r.whole r.frac, dcSign := r.sign, dcValid := 1#1
          status := 0b01#2, rspValid := 1#1 }
      else { s with status := 0b10#2, rspValid := 1#1 })) ∧
  crcOk Config.default 0xE8100CFF7F464BFE6F#72 = true ∧
  measToCel Config.default 0x28#8 0xE8100CFF7F464BFE6F#72 = ⟨1#1, 25#12, 1#4⟩ ∧
  tempToDecicel 1#1 25#12 1#4 = 250#16

/-- R76: the combined signed value, and its range in general and on the CHKDECI path. -/
def Obligations.SignedValueRange : Prop :=
  (∀ s : State,
    (s.dcSign = 1#1 → signedDecicel s = -(s.decicel.toNat : Int)) ∧
    (s.dcSign = 0#1 → signedDecicel s = (s.decicel.toNat : Int))) ∧
  (∀ s : State, Inv s → -40959 ≤ signedDecicel s ∧ signedDecicel s ≤ 40959) ∧
  (∀ (fc : Byte) (s t : State), crcOk s.cfg s.inputs.spIn = true →
    exec (.chkdeci fc) s = .next t →
    -20480 ≤ signedDecicel t ∧ signedDecicel t ≤ 20479)

/-- R77: negative zero is reachable by DECICEL and by masking, keeps its sign, and combines to 0. -/
def Obligations.NegativeZeroKeepsItsSign : Prop :=
  tempToDecicel 1#1 0#12 1#4 = 0#16 ∧
  measToCel Config.default 0x28#8 0x83100CFF1F464BFFFF#72 = ⟨1#1, 0#12, 0#4⟩ ∧
  (∀ s : State, s.inputs.tinSign = 1#1 → s.inputs.tinWhole = 0#12 → s.inputs.tinFrac = 1#4 →
    ∃ t : State, exec .decicel s = .next t ∧ t.dcSign = 1#1 ∧ t.decicel = 0#16 ∧
      signedDecicel t = 0)

/-! ### Status codes (60_exceptions.md) -/

/-- R82: an accepted word that is no command writes STATUS ILLEGAL and the strobe, and nothing else; no operand port
matters. -/
def Obligations.IllegalWordWritesOnlyStatus : Prop :=
  ∀ s : State, accepts s →
    (s.inputs.cmd &&& 0x00F8#16 ≠ 0#16 ∨
      s.inputs.cmd.extractLsb' 0 3 ∈ [0b000#3, 0b101#3, 0b110#3, 0b111#3]) →
    step s = .next (nextEdge { s with status := 0b11#2, rspValid := 1#1 })

/-- R83: a CHKDEC or CHKDECI whose scratchpad fails the check writes STATUS CRC_MISMATCH and the strobe, and nothing
else. -/
def Obligations.CrcMismatchWritesOnlyStatus : Prop :=
  ∀ (fc : Byte) (s : State), crcOk s.cfg s.inputs.spIn = false →
    exec (.chkdec fc) s = .next { s with status := 0b10#2, rspValid := 1#1 } ∧
    exec (.chkdeci fc) s = .next { s with status := 0b10#2, rspValid := 1#1 }

/-- R84: the order of the checks at one edge: reset, idle, RSV, OP, CRC, OK. -/
def Obligations.StatusFollowsTheOrderOfChecks : Prop :=
  ∀ s t : State, step s = .next t →
    t.status =
      (if s.inputs.rst = 1#1 then 0b00#2
      else if s.inputs.cmdValid = 0#1 then s.status
      else if s.inputs.cmd.toNat / 8 % 32 ≠ 0 then 0b11#2
      else if s.inputs.cmd.toNat % 8 ∈ [0, 5, 6, 7] then 0b11#2
      else if s.inputs.cmd.toNat % 8 ∈ [2, 4] ∧ crcOk s.cfg s.inputs.spIn = false then 0b10#2
      else 0b01#2)
end

