-- ==== Sys2Proof/Laws/Convert.lean ====
section
/-! SUPPORT. What the conversion functions compute, in natural numbers (R38, R57, R59, R61, R63, R69). -/

namespace Sys2Proof.Machine

/-- The sign flag is the top half of the range (R59). -/
theorem signFlag_eq (v : Word) : signFlag v = if 32768 ≤ v.toNat then 1#1 else 0#1 := by
  apply BitVec.eq_of_toNat_eq
  have := v.isLt
  simp only [signFlag, BitVec.extractLsb'_toNat, Nat.shiftRight_eq_div_pow]
  split <;> simp <;> omega

/-- The magnitude is the distance to 0 or to 2^16 (R59). -/
theorem magnitude_toNat (v : Word) :
    (magnitude v).toNat = if 32768 ≤ v.toNat then 65536 - v.toNat else v.toNat := by
  have hlt := v.isLt
  unfold magnitude
  rw [signFlag_eq]
  by_cases h : 32768 ≤ v.toNat
  · simp only [h, if_true, BitVec.toNat_add, BitVec.toNat_not, BitVec.toNat_ofNat]
    omega
  · simp [h]

/-- No magnitude exceeds 0x8000 (R59). -/
theorem magnitude_le (v : Word) : (magnitude v).toNat ≤ 32768 := by
  have := v.isLt
  rw [magnitude_toNat]; split <;> omega

/-- The split of step 5 keeps all of the magnitude (R63). -/
theorem split_toNat (m : Word) :
    (m.extractLsb' 4 12).toNat = m.toNat / 16 ∧ (m.extractLsb' 0 4).toNat = m.toNat % 16 := by
  have := m.isLt
  simp only [BitVec.extractLsb'_toNat, Nat.shiftRight_eq_div_pow]
  omega

/-- `SP[1] ++ SP[0]` is little-endian (R40). -/
theorem append_byte_toNat (a b : Byte) : (a ++ b : Word).toNat = a.toNat * 256 + b.toNat := by
  have := b.isLt
  simp only [BitVec.toNat_append]
  rw [← Nat.shiftLeft_add_eq_or_of_lt this, Nat.shiftLeft_eq]

/-- The resolution is 9 to 12 (R60). -/
theorem resolution_bounds (lo : Fin 7) (conf : Byte) :
    9 ≤ resolution lo conf ∧ resolution lo conf ≤ 12 := by
  have := (conf.extractLsb' lo.val 2).isLt
  unfold resolution; omega

/-- The resolution in numbers: the two bits at RES_LO (R60). -/
theorem resolution_eq (lo : Fin 7) (conf : Byte) :
    resolution lo conf = 9 + conf.toNat / 2 ^ lo.val % 4 := by
  simp [resolution, BitVec.extractLsb'_toNat, Nat.shiftRight_eq_div_pow]

/-- Clearing the low `k` bits of a number below 2^16 (R61). -/
theorem and_mask_toNat (m : Word) (k : Nat) :
    (m &&& (0xFFFF#16 <<< k)).toNat = m.toNat / 2 ^ k * 2 ^ k := by
  have ones : (0xFFFF#16 : Word) = BitVec.allOnes 16 := by decide
  have hm : (m &&& (0xFFFF#16 <<< k)) = (m >>> k) <<< k := by
    rw [ones]
    ext i hi
    by_cases h : i < k
    · simp [h]
    · have hik : k + (i - k) = i := by omega
      simp [-BitVec.reduceAllOnes, h, hik, BitVec.getLsbD_eq_getElem hi]
  rw [hm, BitVec.toNat_shiftLeft, BitVec.toNat_ushiftRight, Nat.shiftRight_eq_div_pow, Nat.shiftLeft_eq]
  have := m.isLt
  have h2 : m.toNat / 2 ^ k * 2 ^ k ≤ m.toNat := Nat.div_mul_le_self _ _
  exact Nat.mod_eq_of_lt (by omega)

/-- The resolution mask clears the `12 - res` low bits (R61). -/
theorem and_resMask_toNat (m : Word) (res : Nat) :
    (m &&& resMask res).toNat = m.toNat / 2 ^ (12 - res) * 2 ^ (12 - res) :=
  and_mask_toNat m (12 - res)

/-- Masking never makes a magnitude larger (R61). -/
theorem maskedMagnitude_le (c : Config) (fc : Byte) (sp : Scratchpad) (m : Word) :
    (maskedMagnitude c fc sp m).toNat ≤ m.toNat := by
  unfold maskedMagnitude
  split
  · rw [and_resMask_toNat]
    exact Nat.div_mul_le_self _ _
  · exact Nat.le_refl _

/-- The legacy value in numbers (R57): raw bits 12:1 times 16, plus 12 minus the count, modulo 2^16. -/
theorem legacyValue_toNat (raw : Word) (count : Byte) :
    (legacyValue raw count).toNat =
      (raw.toNat / 2 % 4096 * 16 + 65536 + 12 - count.toNat) % 65536 := by
  have hmask : (0xFFFE#16 : Word) = 0xFFFF#16 <<< 1 := by decide
  have hc := count.isLt
  have hr := raw.isLt
  have hand : (raw &&& 0xFFFE#16).toNat = raw.toNat / 2 * 2 := by
    rw [hmask, and_mask_toNat raw 1]
    simp
  simp only [legacyValue, BitVec.toNat_add, BitVec.toNat_sub, BitVec.toNat_shiftLeft, hand,
    BitVec.toNat_ofNat, BitVec.truncate_eq_setWidth, BitVec.toNat_setWidth, Nat.shiftLeft_eq]
  omega

/-- The tenths digit is 0..9 (R69). -/
theorem tenthsDigit_le (frac : BitVec 4) : tenthsDigit frac ≤ 9 := by
  have := frac.isLt
  unfold tenthsDigit; omega

/-- With the rounding tenth the digit is still 0..9 (R70, R72). -/
theorem tenths_le (sign : BitVec 1) (frac : BitVec 4) :
    tenthsDigit frac + roundingTenth sign frac ≤ 9 := by
  revert sign frac; decide

end Sys2Proof.Machine
end

