-- ==== Sys2Proof/Laws/Crc.lean ====
section
/-! SUPPORT. How a table stands for a function of byte lists (R10, R36). -/

namespace Sys2Proof.Machine

/-- Every byte is among the 256. -/
theorem mem_allBytes (b : Byte) : b ∈ allBytes :=
  List.mem_map.2 ⟨b.toNat, List.mem_range.2 b.isLt, by simp⟩

/-- A table whose entries are all pairs of `f`, with the list among its keys, gives what `f` gives. -/
theorem tableCrc8_eq {f : List Byte → Byte} {entries : List (List Byte × Byte)} {bytes : List Byte}
    {otherwise : Byte} (sound : ∀ entry ∈ entries, entry.2 = f entry.1)
    (listed : ∃ checksum, (bytes, checksum) ∈ entries) : tableCrc8 entries otherwise bytes = f bytes := by
  induction entries with
  | nil => simp at listed
  | cons entry rest ih =>
    by_cases h : entry.1 = bytes
    · simp [tableCrc8, h, sound entry (by simp)]
    · have tail : ∃ checksum, (bytes, checksum) ∈ rest := by
        obtain ⟨checksum, hmem⟩ := listed
        rcases List.mem_cons.1 hmem with rfl | hmem
        · exact absurd rfl h
        · exact ⟨checksum, hmem⟩
      simpa [tableCrc8, h] using ih (fun e he => sound e (List.mem_cons_of_mem _ he)) tail

/-- Every entry of the table of `f` is a pair of `f`. -/
theorem tableOf_sound (f : List Byte → Byte) (n : Nat) (tail : List Byte) :
    ∀ entry ∈ tableOf f n tail, entry.2 = f entry.1 := by
  induction n generalizing tail with
  | zero => simp [tableOf]
  | succ n ih =>
    intro entry h
    obtain ⟨b, _, hb⟩ := List.mem_flatMap.1 h
    exact ih (b :: tail) entry hb

/-- The table of `f` lists every list of `n` bytes before its tail, here given from the last byte to the first. -/
theorem tableOf_lists (f : List Byte → Byte) (front tail : List Byte) :
    ∃ checksum, (front.reverse ++ tail, checksum) ∈ tableOf f front.length tail := by
  induction front generalizing tail with
  | nil => exact ⟨f tail, by simp [tableOf]⟩
  | cons b front ih =>
    obtain ⟨checksum, h⟩ := ih (b :: tail)
    exact ⟨checksum, List.mem_flatMap.2 ⟨b, mem_allBytes b, by simpa using h⟩⟩

end Sys2Proof.Machine
end

