-- ==== Sys2Proof/Laws/Decode.lean ====
section
/-! SUPPORT. The three fields of a command word as numbers (R14, R46). -/

namespace Sys2Proof

/-- `FC` is the high byte. -/
theorem fieldFc_eq (w : Word) : fieldFc w = BitVec.ofNat 8 (w.toNat / 256) := by
  apply BitVec.eq_of_toNat_eq
  simp [fieldFc, BitVec.extractLsb'_toNat, Nat.shiftRight_eq_div_pow]

/-- `RSV` is bits 7:3. -/
theorem fieldRsv_eq (w : Word) : fieldRsv w = BitVec.ofNat 5 (w.toNat / 8) := by
  apply BitVec.eq_of_toNat_eq
  simp [fieldRsv, BitVec.extractLsb'_toNat, Nat.shiftRight_eq_div_pow]

/-- `OP` is the low three bits. -/
theorem fieldOp_eq (w : Word) : fieldOp w = BitVec.ofNat 3 w.toNat := by
  apply BitVec.eq_of_toNat_eq
  simp [fieldOp, BitVec.extractLsb'_toNat]

/-- The command word as a number: the family code over RSV of zeros and the operation (R46). -/
theorem commandWord_toNat (fc : Byte) (op : BitVec 3) :
    (fc ++ 0b00000#5 ++ op : Word).toNat = fc.toNat * 256 + op.toNat := by
  revert fc op; decide

end Sys2Proof
end

