-- ==== Sys2Proof/Laws/Listing.lean ====
section
/-! SUPPORT. How a byte list lies in the scratchpad port (R38, R52). -/

namespace Sys2Proof.Machine

/-- The byte put in first lies lowest. -/
theorem pack_low_byte (acc : Scratchpad) (b : Byte) :
    ((acc <<< 8) ||| b.zeroExtend 72).extractLsb' 0 8 = b := by
  ext i hi
  have : i < 72 := by omega
  simp [hi, this]

/-- The bytes put in before lie one byte higher. -/
theorem pack_higher_byte (acc : Scratchpad) (b : Byte) (n k : Nat) (hk : k = n + 8) (h : n ≤ 56) :
    ((acc <<< 8) ||| b.zeroExtend 72).extractLsb' k 8 = acc.extractLsb' n 8 := by
  subst hk
  ext i hi
  have h1 : n + 8 + i < 72 := by omega
  have h2 : ¬ n + 8 + i < 8 := by omega
  have h3 : n + 8 + i - 8 = n + i := by omega
  have h4 : b.getLsbD (n + 8 + i) = false := BitVec.getLsbD_of_ge _ _ (by omega)
  have h5 : n + i < 72 := by omega
  simp [h1, h2, h3, h4, BitVec.getLsbD_eq_getElem h5]

end Sys2Proof.Machine
end

