-- ==== Sys2Proof/Laws/PerInstr.lean ====
section
/-! SUPPORT. Statements for all commands, one lemma per constructor. -/

namespace Sys2Proof.Laws.TableRow

/-- The `match` column of the command's row in spec/opcode_table.json (R47). -/
def matchOf : Instr → Word
  | .decode _ => 0x0001#16
  | .chkdec _ => 0x0002#16
  | .decicel => 0x0003#16
  | .chkdeci _ => 0x0004#16

/-- The command's word is in its row of the opcode table: `(w & mask) == match`, with the mask 0x00FF (R47). -/
def Statement (i : Instr) : Prop := encode i &&& 0x00FF#16 = matchOf i

theorem decode (fc : Byte) : Statement (.decode fc) := by
  revert fc; unfold Statement; decide

theorem chkdec (fc : Byte) : Statement (.chkdec fc) := by
  revert fc; unfold Statement; decide

theorem decicel : Statement .decicel := by
  unfold Statement; decide

theorem chkdeci (fc : Byte) : Statement (.chkdeci fc) := by
  revert fc; unfold Statement; decide

end Sys2Proof.Laws.TableRow
end

