-- ==== Sys2Proof/Laws/State.lean ====
section
/-! SUPPORT. One lemma per field per update: which field each named update writes, and which it leaves. -/

namespace Sys2Proof.Machine

/-! ### `writeResult`: The result group written (R16, R19). -/

@[simp] theorem writeResult_sign (s : State) (b : BitVec 1) (w : BitVec 12) (f : BitVec 4) : (writeResult s b w f).sign = b := rfl
@[simp] theorem writeResult_whole (s : State) (b : BitVec 1) (w : BitVec 12) (f : BitVec 4) : (writeResult s b w f).whole = w := rfl
@[simp] theorem writeResult_frac (s : State) (b : BitVec 1) (w : BitVec 12) (f : BitVec 4) : (writeResult s b w f).frac = f := rfl
@[simp] theorem writeResult_resValid (s : State) (b : BitVec 1) (w : BitVec 12) (f : BitVec 4) : (writeResult s b w f).resValid = 1#1 := rfl
@[simp] theorem writeResult_dcSign (s : State) (b : BitVec 1) (w : BitVec 12) (f : BitVec 4) : (writeResult s b w f).dcSign = s.dcSign := rfl
@[simp] theorem writeResult_decicel (s : State) (b : BitVec 1) (w : BitVec 12) (f : BitVec 4) : (writeResult s b w f).decicel = s.decicel := rfl
@[simp] theorem writeResult_dcValid (s : State) (b : BitVec 1) (w : BitVec 12) (f : BitVec 4) : (writeResult s b w f).dcValid = s.dcValid := rfl
@[simp] theorem writeResult_status (s : State) (b : BitVec 1) (w : BitVec 12) (f : BitVec 4) : (writeResult s b w f).status = s.status := rfl
@[simp] theorem writeResult_rspValid (s : State) (b : BitVec 1) (w : BitVec 12) (f : BitVec 4) : (writeResult s b w f).rspValid = s.rspValid := rfl
@[simp] theorem writeResult_cfg (s : State) (b : BitVec 1) (w : BitVec 12) (f : BitVec 4) : (writeResult s b w f).cfg = s.cfg := rfl
@[simp] theorem writeResult_host (s : State) (b : BitVec 1) (w : BitVec 12) (f : BitVec 4) : (writeResult s b w f).host = s.host := rfl
@[simp] theorem writeResult_draw (s : State) (b : BitVec 1) (w : BitVec 12) (f : BitVec 4) : (writeResult s b w f).draw = s.draw := rfl
@[simp] theorem writeResult_inputs (s : State) (b : BitVec 1) (w : BitVec 12) (f : BitVec 4) : (writeResult s b w f).inputs = s.inputs := rfl

/-! ### `writeDecicel`: The decicel group written (R16, R19). -/

@[simp] theorem writeDecicel_sign (s : State) (b : BitVec 1) (m : Word) : (writeDecicel s b m).sign = s.sign := rfl
@[simp] theorem writeDecicel_whole (s : State) (b : BitVec 1) (m : Word) : (writeDecicel s b m).whole = s.whole := rfl
@[simp] theorem writeDecicel_frac (s : State) (b : BitVec 1) (m : Word) : (writeDecicel s b m).frac = s.frac := rfl
@[simp] theorem writeDecicel_resValid (s : State) (b : BitVec 1) (m : Word) : (writeDecicel s b m).resValid = s.resValid := rfl
@[simp] theorem writeDecicel_dcSign (s : State) (b : BitVec 1) (m : Word) : (writeDecicel s b m).dcSign = b := rfl
@[simp] theorem writeDecicel_decicel (s : State) (b : BitVec 1) (m : Word) : (writeDecicel s b m).decicel = m := rfl
@[simp] theorem writeDecicel_dcValid (s : State) (b : BitVec 1) (m : Word) : (writeDecicel s b m).dcValid = 1#1 := rfl
@[simp] theorem writeDecicel_status (s : State) (b : BitVec 1) (m : Word) : (writeDecicel s b m).status = s.status := rfl
@[simp] theorem writeDecicel_rspValid (s : State) (b : BitVec 1) (m : Word) : (writeDecicel s b m).rspValid = s.rspValid := rfl
@[simp] theorem writeDecicel_cfg (s : State) (b : BitVec 1) (m : Word) : (writeDecicel s b m).cfg = s.cfg := rfl
@[simp] theorem writeDecicel_host (s : State) (b : BitVec 1) (m : Word) : (writeDecicel s b m).host = s.host := rfl
@[simp] theorem writeDecicel_draw (s : State) (b : BitVec 1) (m : Word) : (writeDecicel s b m).draw = s.draw := rfl
@[simp] theorem writeDecicel_inputs (s : State) (b : BitVec 1) (m : Word) : (writeDecicel s b m).inputs = s.inputs := rfl

/-! ### `respond`: A command answered (R27, R29). -/

@[simp] theorem respond_sign (s : State) (code : BitVec 2) : (respond s code).sign = s.sign := rfl
@[simp] theorem respond_whole (s : State) (code : BitVec 2) : (respond s code).whole = s.whole := rfl
@[simp] theorem respond_frac (s : State) (code : BitVec 2) : (respond s code).frac = s.frac := rfl
@[simp] theorem respond_resValid (s : State) (code : BitVec 2) : (respond s code).resValid = s.resValid := rfl
@[simp] theorem respond_dcSign (s : State) (code : BitVec 2) : (respond s code).dcSign = s.dcSign := rfl
@[simp] theorem respond_decicel (s : State) (code : BitVec 2) : (respond s code).decicel = s.decicel := rfl
@[simp] theorem respond_dcValid (s : State) (code : BitVec 2) : (respond s code).dcValid = s.dcValid := rfl
@[simp] theorem respond_status (s : State) (code : BitVec 2) : (respond s code).status = code := rfl
@[simp] theorem respond_rspValid (s : State) (code : BitVec 2) : (respond s code).rspValid = 1#1 := rfl
@[simp] theorem respond_cfg (s : State) (code : BitVec 2) : (respond s code).cfg = s.cfg := rfl
@[simp] theorem respond_host (s : State) (code : BitVec 2) : (respond s code).host = s.host := rfl
@[simp] theorem respond_draw (s : State) (code : BitVec 2) : (respond s code).draw = s.draw := rfl
@[simp] theorem respond_inputs (s : State) (code : BitVec 2) : (respond s code).inputs = s.inputs := rfl

/-! ### `applyReset`: A reset edge (R96). -/

@[simp] theorem applyReset_sign (s : State) : (applyReset s).sign = 0#1 := rfl
@[simp] theorem applyReset_whole (s : State) : (applyReset s).whole = 0x000#12 := rfl
@[simp] theorem applyReset_frac (s : State) : (applyReset s).frac = 0x0#4 := rfl
@[simp] theorem applyReset_resValid (s : State) : (applyReset s).resValid = 0#1 := rfl
@[simp] theorem applyReset_dcSign (s : State) : (applyReset s).dcSign = 0#1 := rfl
@[simp] theorem applyReset_decicel (s : State) : (applyReset s).decicel = 0x0000#16 := rfl
@[simp] theorem applyReset_dcValid (s : State) : (applyReset s).dcValid = 0#1 := rfl
@[simp] theorem applyReset_status (s : State) : (applyReset s).status = statusNone := rfl
@[simp] theorem applyReset_rspValid (s : State) : (applyReset s).rspValid = 0#1 := rfl
@[simp] theorem applyReset_cfg (s : State) : (applyReset s).cfg = s.cfg := rfl
@[simp] theorem applyReset_host (s : State) : (applyReset s).host = s.host := rfl
@[simp] theorem applyReset_draw (s : State) : (applyReset s).draw = s.draw := rfl
@[simp] theorem applyReset_inputs (s : State) : (applyReset s).inputs = s.inputs := rfl

/-! ### `applyIdle`: An idle edge (R30). -/

@[simp] theorem applyIdle_sign (s : State) : (applyIdle s).sign = s.sign := rfl
@[simp] theorem applyIdle_whole (s : State) : (applyIdle s).whole = s.whole := rfl
@[simp] theorem applyIdle_frac (s : State) : (applyIdle s).frac = s.frac := rfl
@[simp] theorem applyIdle_resValid (s : State) : (applyIdle s).resValid = s.resValid := rfl
@[simp] theorem applyIdle_dcSign (s : State) : (applyIdle s).dcSign = s.dcSign := rfl
@[simp] theorem applyIdle_decicel (s : State) : (applyIdle s).decicel = s.decicel := rfl
@[simp] theorem applyIdle_dcValid (s : State) : (applyIdle s).dcValid = s.dcValid := rfl
@[simp] theorem applyIdle_status (s : State) : (applyIdle s).status = s.status := rfl
@[simp] theorem applyIdle_rspValid (s : State) : (applyIdle s).rspValid = 0#1 := rfl
@[simp] theorem applyIdle_cfg (s : State) : (applyIdle s).cfg = s.cfg := rfl
@[simp] theorem applyIdle_host (s : State) : (applyIdle s).host = s.host := rfl
@[simp] theorem applyIdle_draw (s : State) : (applyIdle s).draw = s.draw := rfl
@[simp] theorem applyIdle_inputs (s : State) : (applyIdle s).inputs = s.inputs := rfl

/-! ### `nextEdge`: the environment moves on; registers and parameters stay. -/

@[simp] theorem nextEdge_sign (s : State) : (nextEdge s).sign = s.sign := by
  unfold nextEdge; split <;> rfl
@[simp] theorem nextEdge_whole (s : State) : (nextEdge s).whole = s.whole := by
  unfold nextEdge; split <;> rfl
@[simp] theorem nextEdge_frac (s : State) : (nextEdge s).frac = s.frac := by
  unfold nextEdge; split <;> rfl
@[simp] theorem nextEdge_resValid (s : State) : (nextEdge s).resValid = s.resValid := by
  unfold nextEdge; split <;> rfl
@[simp] theorem nextEdge_dcSign (s : State) : (nextEdge s).dcSign = s.dcSign := by
  unfold nextEdge; split <;> rfl
@[simp] theorem nextEdge_decicel (s : State) : (nextEdge s).decicel = s.decicel := by
  unfold nextEdge; split <;> rfl
@[simp] theorem nextEdge_dcValid (s : State) : (nextEdge s).dcValid = s.dcValid := by
  unfold nextEdge; split <;> rfl
@[simp] theorem nextEdge_status (s : State) : (nextEdge s).status = s.status := by
  unfold nextEdge; split <;> rfl
@[simp] theorem nextEdge_rspValid (s : State) : (nextEdge s).rspValid = s.rspValid := by
  unfold nextEdge; split <;> rfl
@[simp] theorem nextEdge_cfg (s : State) : (nextEdge s).cfg = s.cfg := by
  unfold nextEdge; split <;> rfl

@[simp] theorem nextEdge_host (s : State) : (nextEdge s).host = s.host.tail := by
  unfold nextEdge
  split <;> rename_i h <;> simp [h]

@[simp] theorem nextEdge_draw (s : State) :
    (nextEdge s).draw = if s.host.isEmpty then s.draw + 1 else s.draw := by
  unfold nextEdge
  split <;> rename_i h <;> simp [h]

/-! ### The composed updates, in terms of the three register writes. -/

@[simp] theorem complete_eq (s : State) : complete s = respond s statusOk := rfl
@[simp] theorem raise_eq (s : State) (code : BitVec 2) : raise s code = respond s code := rfl
@[simp] theorem writeReading_eq (s : State) (r : Reading) :
    writeReading s r = writeResult s r.sign r.whole r.frac := rfl
@[simp] theorem writeTenths_eq (s : State) (r : Reading) :
    writeTenths s r = writeDecicel s r.sign (tempToDecicel r.sign r.whole r.frac) := rfl

/-- The listed edge is what the ports hold. -/
@[simp] theorem inputs_cons (s : State) (e : Inputs) (rest : List Inputs) :
    ({ s with host := e :: rest } : State).inputs = e := rfl

end Sys2Proof.Machine
end

