-- ==== Sys2Proof/Laws/Step.lean ====
section
/-! SUPPORT. Everything a command and an edge can do, said once: the inversion lemmas the proofs cite instead of
unfolding `exec` and `step`. -/

namespace Sys2Proof.Machine

/-- `advance` answers a next state exactly where what it is given does. -/
theorem advance_eq_next {o : Host.Outcome State Fault Refusal} {t : State} :
    advance o = .next t ↔ ∃ u, o = .next u ∧ t = nextEdge u := by
  cases o <;> simp [advance, eq_comm]

/-- Everything a command can do: it writes the groups it names and completes, or it fails the CRC check and writes its
status (R65, R66, R74, R75). -/
theorem exec_cases {i : Instr} {s t : State} (h : exec i s = .next t) :
    (∃ fc, i = .decode fc ∧ t = complete (writeReading s (measToCel s.cfg fc s.inputs.spIn))) ∨
    (∃ fc, i = .chkdec fc ∧ crcOk s.cfg s.inputs.spIn = true ∧
      t = complete (writeReading s (measToCel s.cfg fc s.inputs.spIn))) ∨
    (i = .decicel ∧
      t = complete (writeTenths s ⟨s.inputs.tinSign, s.inputs.tinWhole, s.inputs.tinFrac⟩)) ∨
    (∃ fc, i = .chkdeci fc ∧ crcOk s.cfg s.inputs.spIn = true ∧
      t = complete (writeTenths (writeReading s (measToCel s.cfg fc s.inputs.spIn))
        (measToCel s.cfg fc s.inputs.spIn))) ∨
    (((∃ fc, i = .chkdec fc) ∨ ∃ fc, i = .chkdeci fc) ∧ crcOk s.cfg s.inputs.spIn = false ∧
      t = raise s statusCrcMismatch) := by
  cases i with
  | decode fc => exact .inl ⟨fc, rfl, by simpa [exec, execDecode, eq_comm] using h⟩
  | chkdec fc =>
    by_cases hc : crcOk s.cfg s.inputs.spIn = true
    · exact .inr (.inl ⟨fc, rfl, hc, by simpa [exec, execChkdec, hc, eq_comm] using h⟩)
    · refine .inr (.inr (.inr (.inr ⟨.inl ⟨fc, rfl⟩, by simpa using hc, ?_⟩)))
      simpa [exec, execChkdec, hc, eq_comm] using h
  | decicel => exact .inr (.inr (.inl ⟨rfl, by simpa [exec, execDecicel, eq_comm] using h⟩))
  | chkdeci fc =>
    by_cases hc : crcOk s.cfg s.inputs.spIn = true
    · refine .inr (.inr (.inr (.inl ⟨fc, rfl, hc, ?_⟩)))
      simpa [exec, execChkdeci, hc, eq_comm] using h
    · refine .inr (.inr (.inr (.inr ⟨.inr ⟨fc, rfl⟩, by simpa using hc, ?_⟩)))
      simpa [exec, execChkdeci, hc, eq_comm] using h

/-- A one-bit port that is not 1 is 0. -/
theorem bit_eq_zero {b : BitVec 1} (h : b ≠ 1#1) : b = 0#1 := by
  revert h; revert b; decide

/-- Everything an edge can do (R30): reset, a command, an ILLEGAL word, or an idle cycle. -/
theorem step_cases {s t : State} (h : step s = .next t) :
    (s.inputs.rst = 1#1 ∧ t = nextEdge (applyReset s)) ∨
    (s.inputs.rst = 0#1 ∧ s.inputs.cmdValid = 1#1 ∧
      ∃ i u, decodeWord s.inputs.cmd = .ok i ∧ exec i s = .next u ∧ t = nextEdge u) ∨
    (s.inputs.rst = 0#1 ∧ s.inputs.cmdValid = 1#1 ∧
      (∃ e, decodeWord s.inputs.cmd = .error e) ∧ t = nextEdge (raise s statusIllegal)) ∨
    (s.inputs.rst = 0#1 ∧ s.inputs.cmdValid = 0#1 ∧ t = nextEdge (applyIdle s)) := by
  unfold step at h
  split at h
  next hr =>
    obtain ⟨u, hu, rfl⟩ := advance_eq_next.1 h
    cases hu
    exact .inl ⟨hr, rfl⟩
  next hr =>
    have hr0 := bit_eq_zero hr
    split at h
    next hv =>
      split at h
      next i hi =>
        obtain ⟨u, hu, rfl⟩ := advance_eq_next.1 h
        exact .inr (.inl ⟨hr0, hv, i, u, hi, hu, rfl⟩)
      next e he =>
        obtain ⟨u, hu, rfl⟩ := advance_eq_next.1 h
        cases hu
        exact .inr (.inr (.inl ⟨hr0, hv, ⟨e, he⟩, rfl⟩))
    next hv =>
      obtain ⟨u, hu, rfl⟩ := advance_eq_next.1 h
      cases hu
      exact .inr (.inr (.inr ⟨hr0, bit_eq_zero hv, rfl⟩))

end Sys2Proof.Machine
end

