-- ==== Sys2Proof/Tests/Slice0.lean ====
section
/-! SUPPORT. Small tests, their expected results from spec/95_test_vectors.md, and a witness for the hypotheses of each
statement. `decide +kernel` evaluates in the kernel alone. -/

namespace Sys2Proof.Tests

open Sys2Proof.Machine Sys2Proof.Safety

/-! ### Helpers -/

/-- An edge that presents the command word `w` with the scratchpad `sp`. -/
def commandEdge (w : Word) (sp : Scratchpad) : Inputs := ⟨0#1, 1#1, w, sp, 0#1, 0#12, 0#4⟩

/-- An edge that presents DECICEL's word `w` with operands. -/
def decicelEdge (w : Word) (s : BitVec 1) (whole : BitVec 12) (f : BitVec 4) : Inputs :=
  ⟨0#1, 1#1, w, 0#72, s, whole, f⟩

/-- The reset state facing one edge. -/
def facing (e : Inputs) : State := { State.reset with host := [e] }

/-- The state after V-D1, the start state of the V-C vectors, facing one edge. -/
def afterD1 (e : Inputs) : State :=
  { facing e with sign := 0#1, whole := 25#12, frac := 1#4, resValid := 1#1, status := 1#2 }

/-- The outputs after one edge, if it answers a next state. -/
def outputsAfter (s : State) : Option Outputs :=
  match step s with
  | .next t => some t.outputs
  | .fault _ => none
  | .refused _ => none

/-- [91 01 4B 46 7F FF 0F 10 25], the scratchpad of V-D1. -/
def spD1 : Scratchpad := 0x25100FFF7F464B0191#72

/-- [91 01 4B 46 7F FF 0F 10 24], the bad scratchpad of V-C2. -/
def spC2 : Scratchpad := 0x24100FFF7F464B0191#72

/-- [6F FE 4B 46 7F FF 0C 10 E8], the scratchpad of V-C1 and V-X2. -/
def spX2 : Scratchpad := 0xE8100CFF7F464BFE6F#72

/-! ### Well-formedness: an ill-formed term for each check -/

theorem test_equal_codes_refused : (⟨0x10#8, 0x10#8, 4, 5, .reference⟩ : RawConfig).wellFormed = false := by
  decide

theorem test_confIndex_nine_refused : (⟨0x10#8, 0x28#8, 9, 5, .reference⟩ : RawConfig).wellFormed = false := by
  decide

theorem test_resLo_seven_refused : (⟨0x10#8, 0x28#8, 4, 7, .reference⟩ : RawConfig).wellFormed = false := by
  decide

theorem test_default_config_wellFormed : RawConfig.default.wellFormed = true := by decide

theorem test_every_command_wellFormed : Instr.wellFormed (.decode 0xFF#8) = true := by decide

theorem test_short_byte_list_refused : lineWellFormed (.chkdec 0x28#8 [0, 0]) = false := by decide

theorem test_sign_two_refused : lineWellFormed (.decicel 2 0 0) = false := by decide

theorem test_whole_4096_refused : lineWellFormed (.decicel 0 4096 0) = false := by decide

theorem test_frac_sixteen_refused : lineWellFormed (.decicel 0 0 16) = false := by decide

/-! ### Decoding: words written out bit by bit, FC RSV OP (R46, R47) -/

theorem test_decode_word : decodeWord 0b0010100000000001#16 = .ok (.decode 0x28#8) := by decide

theorem test_chkdec_word : decodeWord 0b0001000000000010#16 = .ok (.chkdec 0x10#8) := by decide

theorem test_decicel_word : decodeWord 0b0000000000000011#16 = .ok .decicel := by decide

theorem test_decicel_word_ignores_fc : decodeWord 0b1111111100000011#16 = .ok .decicel := by decide

theorem test_chkdeci_word : decodeWord 0b0010100000000100#16 = .ok (.chkdeci 0x28#8) := by decide

theorem test_reserved_before_opcode : decodeWord 0b0010100000001001#16 = .error (.reservedBits 1#5) := by
  decide

theorem test_table_word : decodeTableWord 16 0x2804 = some (.chkdeci 0x28#8) := by decide

theorem test_fetch_word_is_sampled : (State.reset.withFetchWord 16 0x1002).inputs.cmd = 0x1002#16 := by decide

/-! ### One edge per command -/

/-- V-D1. -/
theorem test_decode_worked_example :
    outputsAfter (facing (commandEdge 0x2801#16 spD1)) = some ⟨0, 25, 1, 1, 0, 0, 0, 1, 1⟩ := by
  decide +kernel

/-- V-D37: legacy, raw bit 15 clear, yet negative. -/
theorem test_decode_legacy_sign_after_step_two :
    outputsAfter (facing (commandEdge 0x1001#16 0xEA100CFFFF464B1000#72)) =
      some ⟨1, 2048, 0, 1, 0, 0, 0, 1, 1⟩ := by
  decide +kernel

/-- V-C1. -/
theorem test_chkdec_pass :
    outputsAfter (afterD1 (commandEdge 0x2802#16 spX2)) = some ⟨1, 25, 1, 1, 0, 0, 0, 1, 1⟩ := by
  decide +kernel

/-- V-C2: the old reading stays. -/
theorem test_chkdec_mismatch :
    outputsAfter (afterD1 (commandEdge 0x2802#16 spC2)) = some ⟨0, 25, 1, 1, 0, 0, 0, 2, 1⟩ := by
  decide +kernel

/-- V-E19: FC bits ignored. -/
theorem test_decicel_ignores_fc :
    outputsAfter (facing (decicelEdge 0xFF03#16 0 28 15)) = some ⟨0, 0, 0, 0, 0, 289, 1, 1, 1⟩ := by
  decide +kernel

/-- V-E6: no rounding of a negative reading. -/
theorem test_decicel_negative :
    outputsAfter (afterD1 (decicelEdge 0x0003#16 1 25 1)) = some ⟨0, 25, 1, 1, 1, 250, 1, 1, 1⟩ := by
  decide +kernel

/-- V-X2. -/
theorem test_chkdeci_worked_example :
    outputsAfter (facing (commandEdge 0x2804#16 spX2)) = some ⟨1, 25, 1, 1, 1, 250, 1, 1, 1⟩ := by
  decide +kernel

/-- V-X8: both groups unchanged. -/
theorem test_chkdeci_mismatch :
    outputsAfter (afterD1 (commandEdge 0x2804#16 spC2)) = some ⟨0, 25, 1, 1, 0, 0, 0, 2, 1⟩ := by
  decide +kernel

/-- V-I3: RSV is checked before OP. -/
theorem test_illegal_word :
    outputsAfter (afterD1 (commandEdge 0x2809#16 spX2)) = some ⟨0, 25, 1, 1, 0, 0, 0, 3, 1⟩ := by
  decide +kernel

/-- V-I6: idle. -/
theorem test_idle_edge :
    outputsAfter (afterD1 { commandEdge 0x0003#16 0 with cmdValid := 0 }) =
      some ⟨0, 25, 1, 1, 0, 0, 0, 1, 0⟩ := by
  decide +kernel

/-- V-I7: reset wins over a command. -/
theorem test_reset_wins :
    outputsAfter (afterD1 { commandEdge 0x2804#16 spX2 with rst := 1 }) = some ⟨0, 0, 0, 0, 0, 0, 0, 0, 0⟩ := by
  decide +kernel

/-- V-D38: pass-through ignores the configuration byte. -/
theorem test_pass_through :
    measToCel Config.default 0x22#8 0x73100CFF1F464B0197#72 = ⟨0, 25, 7⟩ := by decide

/-- V-D36: a count of 255 gives a correction of -243. -/
theorem test_legacy_count_255 :
    measToCel Config.default 0x10#8 0xDD10FFFFFF464B0000#72 = ⟨1, 15, 3⟩ := by decide

/-- V-D19: 9-bit negative, masked after negation. -/
theorem test_nine_bit_negative :
    measToCel Config.default 0x28#8 0xFA100CFF1F464BFF5E#72 = ⟨1, 10, 0⟩ := by decide

/-- A validator given by a table passes exactly the list it maps to zero. -/
theorem test_table_validator :
    crc8 (.table [(spBytes spC2, 0x00#8)] 0x01#8) (spBytes spC2) = 0x00#8 ∧
    crc8 (.table [(spBytes spC2, 0x00#8)] 0x01#8) (spBytes spD1) = 0x01#8 := by decide

/-- R23: no value before a first result. -/
theorem test_read_before_result : readResult State.reset = .error .noResult := by decide

/-! ### Witnesses: what meets the hypotheses of each statement -/

/-- A command edge whose step answers: the hypothesis of EdgeConsumesOneInput and StatusFollowsTheOrderOfChecks. -/
theorem witness_step_answers : ∃ t, step (facing (commandEdge 0x2801#16 spD1)) = .next t := ⟨_, rfl⟩

theorem witness_BadConfigurationIsRefused :
    (⟨0x28#8, 0x28#8, 4, 5, .reference⟩ : RawConfig).fcConfig = 0x28#8 ∧
    State.build ⟨0x28#8, 0x28#8, 8, 6, .reference⟩ = .refused .badConfiguration ∧
    State.build ⟨0x10#8, 0x28#8, 9, 6, .reference⟩ = .refused .badConfiguration ∧
    State.build ⟨0x10#8, 0x28#8, 8, 7, .delegated 0⟩ = .refused .badConfiguration ∧
    ¬((0x28#8 = 0x10#8) ∨ 8 < 8 ∨ 6 < 6) := ⟨rfl, rfl, rfl, rfl, by decide⟩

theorem witness_ResetEdgeClearsEveryRegister :
    (afterD1 { commandEdge 0x2804#16 spX2 with rst := 1 }).inputs.rst = 1#1 := by decide

theorem witness_ResetErasesThePast :
    sameOutside (afterD1 { commandEdge 0#16 0 with rst := 1 }) (facing { commandEdge 0#16 0 with rst := 1 }) ∧
    (facing { commandEdge 0#16 0 with rst := 1 }).inputs.rst = 1#1 ∧
    ({ commandEdge 0#16 0 with rst := 1 } : Inputs).rst = 1#1 := ⟨⟨rfl, rfl, rfl⟩, rfl, rfl⟩

theorem witness_ParametersAreFixed :
    ∃ t : State, Host.Core.run core 1 (facing (commandEdge 0x2801#16 spD1)) = .next t := ⟨_, rfl⟩

theorem witness_IdleEdgeOnlyDropsTheStrobe :
    (facing { commandEdge 0x0003#16 0 with cmdValid := 0 }).inputs.rst = 0#1 ∧
    (facing { commandEdge 0x0003#16 0 with cmdValid := 0 }).inputs.cmdValid = 0#1 := by decide

theorem witness_StepRunsTheDecodedCommand :
    accepts (facing (commandEdge 0x2801#16 spD1)) ∧
    decodeWord (facing (commandEdge 0x2801#16 spD1)).inputs.cmd = .ok (.decode 0x28#8) ∧
    Instr.wellFormed (.decode 0x28#8) = true ∧
    ∃ t, exec (.decode 0x28#8) (facing (commandEdge 0x2801#16 spD1)) = .next t :=
  ⟨⟨rfl, rfl⟩, rfl, rfl, _, rfl⟩

/-- Both clauses of the strobe: an accepted ILLEGAL word, and an edge whose reset wins. -/
theorem witness_StrobeMarksAcceptedWords :
    accepts (facing (commandEdge 0x0007#16 0)) ∧
    (∃ t, step (facing (commandEdge 0x0007#16 0)) = .next t) ∧
    ¬accepts (facing { commandEdge 0x2804#16 0 with rst := 1 }) ∧
    (∃ t, step (facing { commandEdge 0x2804#16 0 with rst := 1 }) = .next t) :=
  ⟨⟨rfl, rfl⟩, ⟨_, rfl⟩, fun h => absurd h.1 (by decide), ⟨_, rfl⟩⟩

/-- Each clause of the valid bits: cleared by reset, kept by an idle edge, set by DECODE and by DECICEL. -/
theorem witness_ValidBitsFollowTheWrites :
    (facing { commandEdge 0#16 0 with rst := 1 }).inputs.rst = 1#1 ∧
    ((afterD1 (decicelEdge 0x0003#16 0 28 15)).inputs.rst = 0#1 ∧
      (afterD1 (decicelEdge 0x0003#16 0 28 15)).resValid = 1#1) ∧
    (({ afterD1 (decicelEdge 0x0003#16 0 28 15) with dcValid := 1#1 } : State).dcValid = 1#1) ∧
    (∃ t, step (facing (commandEdge 0x2801#16 spD1)) = .next t ∧ t.resValid = 1#1) ∧
    (∃ t, step (facing (decicelEdge 0x0003#16 0 28 15)) = .next t ∧ t.dcValid = 1#1) :=
  ⟨rfl, ⟨rfl, rfl⟩, rfl, ⟨_, rfl, rfl⟩, ⟨_, rfl, rfl⟩⟩

theorem witness_UnwrittenResultsReadNoValue :
    State.reset.resValid = 0#1 ∧ (afterD1 Inputs.zero).resValid = 1#1 ∧ State.reset.dcValid = 0#1 ∧
    ({ State.reset with dcValid := 1#1 } : State).dcValid = 1#1 := by decide

/-- Each hypothesis of the frame: a command that does not write a group, and one that fails its check. -/
theorem witness_CommandFrame :
    (writesResult .decicel = false ∧
      ∃ t, exec .decicel (facing (decicelEdge 0x0003#16 0 28 15)) = .next t) ∧
    (writesDecicel (.decode 0x28#8) = false ∧
      ∃ t, exec (.decode 0x28#8) (facing (commandEdge 0x2801#16 spD1)) = .next t) ∧
    (crcGated (.chkdeci 0x28#8) = true ∧
      crcOk (facing (commandEdge 0x2804#16 spC2)).cfg (facing (commandEdge 0x2804#16 spC2)).inputs.spIn = false ∧
      ∃ t, exec (.chkdeci 0x28#8) (facing (commandEdge 0x2804#16 spC2)) = .next t) :=
  ⟨⟨rfl, _, rfl⟩, ⟨rfl, _, rfl⟩, rfl, by decide +kernel, _, rfl⟩

theorem witness_CommandsReadOnlyTheInputs :
    sameOutside (afterD1 (commandEdge 0x2801#16 spX2)) (facing (commandEdge 0x2801#16 spX2)) ∧
    (∃ t, exec (.decode 0x28#8) (afterD1 (commandEdge 0x2801#16 spX2)) = .next t) ∧
    (∃ t, exec (.decode 0x28#8) (facing (commandEdge 0x2801#16 spX2)) = .next t) :=
  ⟨⟨rfl, rfl, rfl⟩, ⟨_, rfl⟩, ⟨_, rfl⟩⟩

theorem witness_LaterInputsHaveNoEffect :
    1 ≤ (facing (commandEdge 0x2801#16 spD1)).host.length ∧
    ∃ t : State, Host.Core.run core 1 (facing (commandEdge 0x2801#16 spD1)) = .next t :=
  ⟨by decide, _, rfl⟩

/-- The state after V-D1 meets the invariant, whatever edge it faces. -/
theorem afterD1_inv (e : Inputs) : Inv (afterD1 e) := by
  refine ⟨?_, ?_, ?_, ?_, ?_, ?_, ?_⟩ <;>
    simp [afterD1, facing, State.reset, decicelAtReset, statusNone, statusOk]

theorem witness_EveryEdgeKeepsTheInvariant :
    Inv (afterD1 (decicelEdge 0x0003#16 1 25 1)) ∧
    ∃ t, step (afterD1 (decicelEdge 0x0003#16 1 25 1)) = .next t := ⟨afterD1_inv _, _, rfl⟩

/-- A word for each clause, at the edges of its range. -/
theorem witness_DecodingFollowsTheOpcodeMap :
    (0x0008#16).toNat / 8 % 32 ≠ 0 ∧ (0xFFFF#16).toNat / 8 % 32 ≠ 0 ∧
    (0xFF01#16).toNat % 256 = 1 ∧ (0x0002#16).toNat % 256 = 2 ∧ (0xFF03#16).toNat % 256 = 3 ∧
    (0x0004#16).toNat % 256 = 4 ∧
    (0x0000#16).toNat % 256 ∈ [0, 5, 6, 7] ∧ (0xFF07#16).toNat % 256 ∈ [0, 5, 6, 7] := by decide

theorem witness_DecodeAndEncodeAgree :
    Instr.wellFormed (.chkdeci 0xFF#8) = true ∧ decodeWord 0xFF03#16 = .ok .decicel ∧
    decodeWord 0xFF04#16 = .ok (.chkdeci 0xFF#8) := by decide

/-- The hypotheses of ListingLinesPresentTheirOperands and of ControlAndRawWordLines. -/
theorem witness_ListingLinesPresentTheirOperands :
    nineBytes [0x91, 0x01, 0x4B, 0x46, 0x7F, 0xFF, 0x0F, 0x10, 0x25] = true ∧
    lineWellFormed (.decicel 1 4095 15) = true := by decide

theorem witness_EveryCrc8CanBeConfigured :
    RawConfig.default.wellFormed = true ∧
    RawConfig.wellFormed ⟨0x10#8, 0x28#8, 8, 6, unitOfFunction (fun bytes => bytes.headD 0)⟩ = true :=
  ⟨by decide, rfl⟩

/-- Both sides of the sign test, on `v` (R57): raw 0x1000 with a count of 12 gives 32768 (V-D37), and with a count of 13
gives 32767. -/
theorem witness_LegacyReading :
    (spRaw 0xEA100CFFFF464B1000#72).toNat = 0x1000 ∧ (spByte 0xEA100CFFFF464B1000#72 6).toNat = 12 ∧
    (0x1000 / 2 % 4096 * 16 + 65536 + 12 - 12) % 65536 = 32768 ∧
    (spRaw 0xEA100DFFFF464B1000#72).toNat = 0x1000 ∧ (spByte 0xEA100DFFFF464B1000#72 6).toNat = 13 ∧
    (0x1000 / 2 % 4096 * 16 + 65536 + 12 - 13) % 65536 = 32767 := by decide

/-- Both sides of the sign test: the raw values of V-D12 and V-D11. -/
theorem witness_ConfigurableReading :
    (spRaw 0x84100CFF7F464B7FFF#72).toNat = 32767 ∧ (spRaw 0x5F100CFF7F464B8000#72).toNat = 32768 := by decide

theorem witness_PassThroughReading :
    (0x22#8 ≠ Config.default.fcLegacy) ∧ (0x22#8 ≠ Config.default.fcConfig) ∧
    (spRaw 0x84100CFF7F464B7FFF#72).toNat = 32767 ∧ (spRaw 0x5F100CFF7F464B8000#72).toNat = 32768 := by decide

/-- V-D11: WHOLE reaches 0x800. -/
theorem witness_ReadingRange :
    (measToCel Config.default 0x28#8 0x5F100CFF7F464B8000#72).whole = 0x800#12 := by decide

/-- Two scratchpads that differ in the ignored byte 2 alone. -/
theorem witness_IgnoredBytesDoNotMatter :
    (spByte spD1 2 ≠ spByte 0x25100FFF7F46000191#72 2) ∧
    ∀ i : Fin 9, readsByte Config.default 0x28#8 i → spByte spD1 i = spByte 0x25100FFF7F46000191#72 i := by
  refine ⟨by decide, fun i h => ?_⟩
  rcases h with rfl | rfl | ⟨_, rfl⟩ | ⟨_, rfl⟩ <;> decide

theorem witness_ReferenceCrcMatchesLastByte : Config.default.crc8 = .reference := rfl

theorem witness_CorruptedTrailingByteIsCaught :
    Config.default.crc8 = .reference ∧ (∀ i : Fin 9, i ≠ 8 → spByte spD1 i = spByte spC2 i) ∧
    spByte spD1 8 ≠ spByte spC2 8 ∧ crcOk Config.default spD1 = true := by
  refine ⟨rfl, by decide, by decide, by decide +kernel⟩

/-- Both branches of ChkdecIsGatedByTheCrc and ChkdeciWritesBothGroups. -/
theorem witness_CrcGate : crcOk Config.default spX2 = true ∧ crcOk Config.default spC2 = false := by
  refine ⟨by decide +kernel, by decide +kernel⟩

/-- TenthsRange's clause for sign 0 (a positive reading, V-X4), and for RoundingIsPositiveOnly a code in and one out of the rounding set. -/
theorem witness_TenthsClauses :
    (measToCel Config.default 0x28#8 0x84100CFF7F464B7FFF#72).sign = 0#1 ∧
    (14#4).toNat ∈ [1, 3, 4, 6, 9, 11, 12, 14] ∧ (15#4).toNat ∉ [1, 3, 4, 6, 9, 11, 12, 14] := by decide

theorem witness_SignedValueRange :
    ({ State.reset with dcSign := 1#1 } : State).dcSign = 1#1 ∧ State.reset.dcSign = 0#1 ∧
    Inv (afterD1 (commandEdge 0x2804#16 spX2)) ∧
    crcOk (facing (commandEdge 0x2804#16 spX2)).cfg (facing (commandEdge 0x2804#16 spX2)).inputs.spIn = true ∧
    ∃ t, exec (.chkdeci 0x28#8) (facing (commandEdge 0x2804#16 spX2)) = .next t :=
  ⟨rfl, rfl, afterD1_inv _, by decide +kernel, _, rfl⟩

theorem witness_NegativeZeroKeepsItsSign :
    (facing (decicelEdge 0x0003#16 1 0 1)).inputs.tinSign = 1#1 ∧
    (facing (decicelEdge 0x0003#16 1 0 1)).inputs.tinWhole = 0#12 ∧
    (facing (decicelEdge 0x0003#16 1 0 1)).inputs.tinFrac = 1#4 := by decide

/-- Both ways of being ILLEGAL: V-I4 (RSV) and V-I5 (OP). -/
theorem witness_IllegalWordWritesOnlyStatus :
    accepts (facing (commandEdge 0x28FC#16 0)) ∧ (0x28FC#16 &&& 0x00F8#16 ≠ 0#16) ∧
    accepts (facing (commandEdge 0x1005#16 0)) ∧
    (0x1005#16).extractLsb' 0 3 ∈ [0b000#3, 0b101#3, 0b110#3, 0b111#3] :=
  ⟨⟨rfl, rfl⟩, by decide, ⟨rfl, rfl⟩, by decide⟩

theorem witness_CrcMismatchWritesOnlyStatus :
    crcOk (afterD1 (commandEdge 0x2802#16 spC2)).cfg (afterD1 (commandEdge 0x2802#16 spC2)).inputs.spIn = false := by
  decide +kernel

end Sys2Proof.Tests
end

section
/-! PROOFS. The configuration boundary and the delegated CRC8 validator (R8 to R10, R17, R36, R62, C2). -/

namespace Sys2Proof.Proofs

open Sys2Proof.Machine

/-! ### The configuration boundary -/

/-- The admitted requests are those that break neither R8 nor R9. -/
theorem rawConfig_wellFormed_iff (r : RawConfig) :
    r.wellFormed = true ↔ ¬(r.fcConfig = r.fcLegacy ∨ 8 < r.confIndex ∨ 6 < r.resLo) := by
  simp [RawConfig.wellFormed, RawConfig.codesDistinct, RawConfig.confIndexInRange,
    RawConfig.resLoInRange, and_assoc]

/-- An admitted request is built as asked, right after reset (R17, R96). -/
theorem build_of_wellFormed {r : RawConfig} (h : r.wellFormed = true) :
    ∃ c : Config, State.build r = .next { State.reset with cfg := c } ∧
      c.fcLegacy = r.fcLegacy ∧ c.fcConfig = r.fcConfig ∧ c.confIndex.val = r.confIndex ∧
      c.resLo.val = r.resLo ∧ c.crc8 = r.crc8 := by
  obtain ⟨distinct, hconf, hres⟩ := RawConfig.bounds_of_wellFormed h
  refine ⟨⟨r.fcLegacy, r.fcConfig, ⟨r.confIndex, hconf⟩, ⟨r.resLo, hres⟩, r.crc8, distinct⟩,
    ?_, rfl, rfl, rfl, rfl, rfl⟩
  simp [State.build, configOfRaw, h]

/-- Any other request is refused (R17, U12). -/
theorem build_of_not_wellFormed {r : RawConfig} (h : ¬r.wellFormed = true) :
    State.build r = .refused .badConfiguration := by
  simp [State.build, configOfRaw, h]

/-- A build is refused exactly where the request is not admitted. -/
theorem build_eq_refused_iff (r : RawConfig) :
    State.build r = .refused .badConfiguration ↔ ¬r.wellFormed = true := by
  refine ⟨fun hrefused hwf => ?_, build_of_not_wellFormed⟩
  obtain ⟨c, hbuilt, -⟩ := build_of_wellFormed hwf
  simp [hbuilt] at hrefused

/-- Settles O2: the refusals are the requests that are not well formed, which are those that break R8 or R9. -/
theorem badConfigurationIsRefused : Obligations.BadConfigurationIsRefused := fun r =>
  ⟨by rw [build_eq_refused_iff, rawConfig_wellFormed_iff, not_not],
    fun hgood => build_of_wellFormed ((rawConfig_wellFormed_iff r).2 hgood)⟩

/-! ### The check over the nine bytes -/

/-- The check sees nine bytes (R40). -/
theorem spBytes_length (sp : Scratchpad) : (spBytes sp).length = 9 := by
  simp [spBytes]

/-- The trailing byte is the last one the check sees (R40, R62). -/
theorem spBytes_eq_take_append (sp : Scratchpad) :
    spBytes sp = (spBytes sp).take 8 ++ [spByte sp 8] := rfl

/-- The check passes iff the configured validator gives the nine bytes 0x00 (R62). -/
theorem crcOk_iff (c : Config) (sp : Scratchpad) :
    crcOk c sp = true ↔ crc8 c.crc8 (spBytes sp) = 0x00#8 := by
  simp [crcOk]

/-! ### The reference CRC -/

/-- One bit step sends nothing but 0 to 0: the polynomial 0x8C has its top bit set, which the shift leaves 0 (R10). -/
theorem crcBit_eq_zero_iff (crc : Byte) : crcBit crc = 0x00#8 ↔ crc = 0x00#8 := by
  revert crc; decide

/-- A byte takes the CRC to 0 iff it is the CRC so far. -/
theorem crcByte_eq_zero_iff (crc byte : Byte) : crcByte crc byte = 0x00#8 ↔ crc = byte := by
  simp only [crcByte, crcBit_eq_zero_iff, BitVec.xor_eq_zero_iff]

/-- The reference CRC takes its bytes in order (R10). -/
theorem referenceCrc8_append_singleton (bytes : List Byte) (byte : Byte) :
    referenceCrc8 (bytes ++ [byte]) = crcByte (referenceCrc8 bytes) byte := by
  simp [referenceCrc8]

/-- Settles O33: the last byte takes the CRC to 0 iff it is the CRC of the bytes before it (C2). -/
theorem referenceCrcMatchesLastByte : Obligations.ReferenceCrcMatchesLastByte := by
  intro c sp href
  calc crcOk c sp = true
      ↔ referenceCrc8 (spBytes sp) = 0x00#8 := by rw [crcOk_iff, href, crc8]
    _ ↔ crcByte (referenceCrc8 ((spBytes sp).take 8)) (spByte sp 8) = 0x00#8 := by
        rw [← referenceCrc8_append_singleton, ← spBytes_eq_take_append]
    _ ↔ referenceCrc8 ((spBytes sp).take 8) = spByte sp 8 := crcByte_eq_zero_iff _ _

/-- Settles O35: four closed evaluations, in the kernel alone as in the model's tests. -/
theorem referenceCrcOnKnownLists : Obligations.ReferenceCrcOnKnownLists :=
  ⟨by decide +kernel, by decide +kernel, by decide +kernel, by decide +kernel⟩

/-! ### A validator given by its table -/

/-- The unit of `f` computes `f` on every list the block applies it to (R10, R36). -/
theorem crc8_unitOfFunction (f : List Byte → Byte) {bytes : List Byte} (h : bytes.length = 9) :
    crc8 (unitOfFunction f) bytes = f bytes := by
  have listed : ∃ checksum, (bytes, checksum) ∈ tableOf f 9 [] := by
    simpa [h] using tableOf_lists f bytes.reverse []
  exact tableCrc8_eq (tableOf_sound f 9 []) listed

/-- Settles O52: the other parameters alone decide whether a request is admitted, and the table of `f` gives what `f`
gives on the nine bytes. -/
theorem everyCrc8CanBeConfigured : Obligations.EveryCrc8CanBeConfigured := by
  intro f r hwf
  have hwf' : ({ r with crc8 := unitOfFunction f } : RawConfig).wellFormed = true := hwf
  obtain ⟨c, hbuilt, hlegacy, hconfig, hindex, hres, hcrc⟩ := build_of_wellFormed hwf'
  refine ⟨c, hbuilt, hlegacy, hconfig, hindex, hres, fun sp => ?_⟩
  have hf : crc8 c.crc8 (spBytes sp) = f (spBytes sp) := by
    rw [hcrc, crc8_unitOfFunction f (spBytes_length sp)]
  exact ⟨hf, by rw [crcOk_iff, hf]⟩

end Sys2Proof.Proofs
end

section
/-! PROOFS. The registers and the edge (10_state.md): what a command and an edge do, the valid bits, the frame, causality,
the listing lines, the ranges of the results, and the invariant that every edge keeps. -/

namespace Sys2Proof.Proofs

open Sys2Proof.Machine Sys2Proof.Safety

/-! ### What a command answers, read forwards

`exec_cases` reads an answer back; these say which answer there is. -/

/-- DECODE writes the reading and completes (R65). -/
theorem exec_decode (fc : Byte) (s : State) :
    exec (.decode fc) s = .next (complete (writeReading s (measToCel s.cfg fc s.inputs.spIn))) := rfl

/-- A CHKDEC that passes its check does as DECODE (R66). -/
theorem exec_chkdec_of_crcOk (fc : Byte) {s : State} (h : crcOk s.cfg s.inputs.spIn = true) :
    exec (.chkdec fc) s = .next (complete (writeReading s (measToCel s.cfg fc s.inputs.spIn))) := by
  simp only [exec, execChkdec, h, if_true]

/-- DECICEL writes the tenths of its operands and completes (R74). -/
theorem exec_decicel (s : State) :
    exec .decicel s =
      .next (complete (writeTenths s ⟨s.inputs.tinSign, s.inputs.tinWhole, s.inputs.tinFrac⟩)) := rfl

/-- A CHKDECI that passes its check writes both groups from one reading (R75). -/
theorem exec_chkdeci_of_crcOk (fc : Byte) {s : State} (h : crcOk s.cfg s.inputs.spIn = true) :
    exec (.chkdeci fc) s =
      .next (complete (writeTenths (writeReading s (measToCel s.cfg fc s.inputs.spIn))
        (measToCel s.cfg fc s.inputs.spIn))) := by
  simp only [exec, execChkdeci, h, if_true]

/-- A CHKDEC or CHKDECI that fails its check raises CRC_MISMATCH (R83). -/
theorem exec_of_crcMismatch {i : Instr} {s : State}
    (hi : (∃ fc, i = .chkdec fc) ∨ ∃ fc, i = .chkdeci fc) (h : crcOk s.cfg s.inputs.spIn = false) :
    exec i s = .next (raise s statusCrcMismatch) := by
  obtain ⟨fc, rfl⟩ | ⟨fc, rfl⟩ := hi
  · simp [exec, execChkdec, h]
  · simp [exec, execChkdeci, h]

/-- Every command answers a next state (R37, R80). -/
theorem exec_answers (i : Instr) (s : State) : ∃ t, exec i s = .next t := by
  cases i <;> exact ⟨_, rfl⟩

/-! ### What a command leaves -/

/-- No command touches the parameters or the environment (R36, R98). -/
theorem exec_keeps_outside {i : Instr} {s t : State} (h : exec i s = .next t) :
    t.cfg = s.cfg ∧ t.host = s.host ∧ t.draw = s.draw := by
  obtain ⟨fc, -, rfl⟩ | ⟨fc, -, -, rfl⟩ | ⟨-, rfl⟩ | ⟨fc, -, -, rfl⟩ | ⟨-, -, rfl⟩ := exec_cases h <;>
    exact ⟨rfl, rfl, rfl⟩

/-- Every command raises the strobe (R29). -/
theorem exec_rspValid {i : Instr} {s t : State} (h : exec i s = .next t) : t.rspValid = 1#1 := by
  obtain ⟨fc, -, rfl⟩ | ⟨fc, -, -, rfl⟩ | ⟨-, rfl⟩ | ⟨fc, -, -, rfl⟩ | ⟨-, -, rfl⟩ := exec_cases h <;> rfl

/-- A command makes the result group valid, if it writes that group and passes its check, or leaves it (R19, R23). -/
theorem exec_writes_or_keeps_result {i : Instr} {s t : State} (h : exec i s = .next t) :
    (writesResult i = true ∧ (crcGated i = true → crcOk s.cfg s.inputs.spIn = true) ∧
      t.resValid = 1#1) ∨ sameResult s t := by
  obtain ⟨fc, rfl, rfl⟩ | ⟨fc, rfl, hok, rfl⟩ | ⟨rfl, rfl⟩ | ⟨fc, rfl, hok, rfl⟩ | ⟨-, -, rfl⟩ :=
    exec_cases h
  · exact .inl ⟨rfl, nofun, rfl⟩
  · exact .inl ⟨rfl, fun _ => hok, rfl⟩
  · exact .inr ⟨rfl, rfl, rfl, rfl⟩
  · exact .inl ⟨rfl, fun _ => hok, rfl⟩
  · exact .inr ⟨rfl, rfl, rfl, rfl⟩

/-- A command makes the decicel group valid, if it writes that group and passes its check, or leaves it (R19, R26). -/
theorem exec_writes_or_keeps_decicel {i : Instr} {s t : State} (h : exec i s = .next t) :
    (writesDecicel i = true ∧ (crcGated i = true → crcOk s.cfg s.inputs.spIn = true) ∧
      t.dcValid = 1#1) ∨ sameDecicel s t := by
  obtain ⟨fc, rfl, rfl⟩ | ⟨fc, rfl, hok, rfl⟩ | ⟨rfl, rfl⟩ | ⟨fc, rfl, hok, rfl⟩ | ⟨-, -, rfl⟩ :=
    exec_cases h
  · exact .inr ⟨rfl, rfl, rfl⟩
  · exact .inr ⟨rfl, rfl, rfl⟩
  · exact .inl ⟨rfl, nofun, rfl⟩
  · exact .inl ⟨rfl, fun _ => hok, rfl⟩
  · exact .inr ⟨rfl, rfl, rfl⟩

/-- RES_VALID stays 1, and becomes 1 only with a write of the result group (R23). -/
theorem exec_resValid {i : Instr} {s t : State} (h : exec i s = .next t) :
    (s.resValid = 1#1 → t.resValid = 1#1) ∧
    (t.resValid = 1#1 → s.resValid = 1#1 ∨
      writesResult i = true ∧ (crcGated i = true → crcOk s.cfg s.inputs.spIn = true)) := by
  obtain ⟨hwrites, hpass, hset⟩ | ⟨-, -, -, hsame⟩ := exec_writes_or_keeps_result h
  · exact ⟨fun _ => hset, fun _ => .inr ⟨hwrites, hpass⟩⟩
  · rw [hsame]; exact ⟨id, .inl⟩

/-- DC_VALID stays 1, and becomes 1 only with a write of the decicel group (R26). -/
theorem exec_dcValid {i : Instr} {s t : State} (h : exec i s = .next t) :
    (s.dcValid = 1#1 → t.dcValid = 1#1) ∧
    (t.dcValid = 1#1 → s.dcValid = 1#1 ∨
      writesDecicel i = true ∧ (crcGated i = true → crcOk s.cfg s.inputs.spIn = true)) := by
  obtain ⟨hwrites, hpass, hset⟩ | ⟨-, -, hsame⟩ := exec_writes_or_keeps_decicel h
  · exact ⟨fun _ => hset, fun _ => .inr ⟨hwrites, hpass⟩⟩
  · rw [hsame]; exact ⟨id, .inl⟩

/-- The ports are a function of the environment alone. -/
theorem inputs_congr {s s' : State} (hhost : s.host = s'.host) (hdraw : s.draw = s'.draw) :
    s.inputs = s'.inputs := by
  simp only [State.inputs, hhost, hdraw]

/-- Settles O15: a command that writes a group passes its check, and every other command leaves the group. -/
theorem commandFrame : Obligations.CommandFrame := by
  intro i s t h
  have hclash {w : Bool} (hnot : w = false ∨ (crcGated i = true ∧ crcOk s.cfg s.inputs.spIn = false))
      (hwrites : w = true) : ¬(crcGated i = true → crcOk s.cfg s.inputs.spIn = true) := by
    obtain hno | ⟨hgated, hbad⟩ := hnot
    · simp [hno] at hwrites
    · simp [hgated, hbad]
  obtain ⟨hcfg, hhost, hdraw⟩ := exec_keeps_outside h
  refine ⟨fun hnot => ?_, fun hnot => ?_, hcfg, hhost, hdraw, inputs_congr hhost hdraw⟩
  · exact (exec_writes_or_keeps_result h).resolve_left
      fun ⟨hwrites, hpass, _⟩ => hclash hnot hwrites hpass
  · exact (exec_writes_or_keeps_decicel h).resolve_left
      fun ⟨hwrites, hpass, _⟩ => hclash hnot hwrites hpass

/-- Settles O16: the way the command takes in `s` is the way it takes in `s'`, since the parameters and the ports, which
decide it, are the same. -/
theorem commandsReadOnlyTheInputs : Obligations.CommandsReadOnlyTheInputs := by
  rintro i s s' t t' ⟨hcfg, hhost, hdraw⟩ h h'
  have hin := inputs_congr hhost hdraw
  obtain ⟨fc, rfl, rfl⟩ | ⟨fc, rfl, hok, rfl⟩ | ⟨rfl, rfl⟩ | ⟨fc, rfl, hok, rfl⟩ | ⟨hi, hbad, rfl⟩ :=
    exec_cases h
  · rw [exec_decode] at h'
    cases h'
    simp [sameResult, sameDecicel, hcfg, hin]
  · rw [exec_chkdec_of_crcOk fc (by rwa [← hcfg, ← hin])] at h'
    cases h'
    simp [sameResult, sameDecicel, hcfg, hin]
  · rw [exec_decicel] at h'
    cases h'
    simp [sameResult, sameDecicel, hin]
  · rw [exec_chkdeci_of_crcOk fc (by rwa [← hcfg, ← hin])] at h'
    cases h'
    simp [sameResult, sameDecicel, hcfg, hin]
  · rw [exec_of_crcMismatch hi (by rwa [← hcfg, ← hin])] at h'
    cases h'
    simp [sameResult, sameDecicel]

/-! ### What an edge answers, read forwards -/

/-- A reset edge (R94, R96). -/
theorem step_of_reset {s : State} (hrst : s.inputs.rst = 1#1) :
    step s = .next (nextEdge (applyReset s)) := by
  simp [step, hrst, advance]

/-- An idle edge (R30, case 3). -/
theorem step_of_idle {s : State} (hrst : s.inputs.rst = 0#1) (hvalid : s.inputs.cmdValid = 0#1) :
    step s = .next (nextEdge (applyIdle s)) := by
  simp [step, hrst, hvalid, advance]

/-- An edge that accepts a command (R30, case 2). -/
theorem step_of_command {s : State} {i : Instr} (hacc : accepts s)
    (hdec : decodeWord s.inputs.cmd = .ok i) : step s = advance (exec i s) := by
  obtain ⟨hrst, hvalid⟩ := hacc
  simp [step, hrst, hvalid, hdec]

/-- An edge that accepts a word that is no command (R82). -/
theorem step_of_illegal {s : State} {e : DecodeError} (hacc : accepts s)
    (hdec : decodeWord s.inputs.cmd = .error e) :
    step s = .next (nextEdge (raise s statusIllegal)) := by
  obtain ⟨hrst, hvalid⟩ := hacc
  simp [step, hrst, hvalid, hdec, execIllegal, advance]

/-- If the command answers `t`, the edge answers `t` with the environment moved on. -/
theorem step_of_exec {s t : State} {i : Instr} (hacc : accepts s)
    (hdec : decodeWord s.inputs.cmd = .ok i) (h : exec i s = .next t) :
    step s = .next (nextEdge t) := by
  rw [step_of_command hacc hdec, h, advance]

/-- Settles O7: `applyIdle` is the record update of the statement. -/
theorem idleEdgeOnlyDropsTheStrobe : Obligations.IdleEdgeOnlyDropsTheStrobe :=
  fun _ hrst hvalid => step_of_idle hrst hvalid

/-- Settles O8: the edge of an accepted command, without and with the command's answer. -/
theorem stepRunsTheDecodedCommand : Obligations.StepRunsTheDecodedCommand :=
  fun _ _ hacc hdec _ => ⟨step_of_command hacc hdec, fun _ h => step_of_exec hacc hdec h⟩

/-- Settles O10: in each of the four cases of R30 the edge answers. -/
theorem everyEdgeAnswersANextState : Obligations.EveryEdgeAnswersANextState := by
  intro s
  by_cases hrst : s.inputs.rst = 1#1
  · exact ⟨_, step_of_reset hrst⟩
  by_cases hvalid : s.inputs.cmdValid = 1#1
  · have hacc : accepts s := ⟨bit_eq_zero hrst, hvalid⟩
    cases hdec : decodeWord s.inputs.cmd with
    | ok i =>
      obtain ⟨t, ht⟩ := exec_answers i s
      exact ⟨_, step_of_exec hacc hdec ht⟩
    | error e => exact ⟨_, step_of_illegal hacc hdec⟩
  · exact ⟨_, step_of_idle (bit_eq_zero hrst) (bit_eq_zero hvalid)⟩

/-- Settles O11: commands and ILLEGAL words raise the strobe, reset and idle edges drop it. -/
theorem strobeMarksAcceptedWords : Obligations.StrobeMarksAcceptedWords := by
  intro s t h
  obtain ⟨hrst, rfl⟩ | ⟨hrst, hvalid, i, u, -, hexec, rfl⟩ | ⟨hrst, hvalid, -, rfl⟩ |
    ⟨-, hvalid, rfl⟩ := step_cases h
  · exact ⟨fun hacc => by simp [hacc.1] at hrst, fun _ => by simp⟩
  · exact ⟨fun _ => by simp [exec_rspValid hexec], fun hnot => absurd ⟨hrst, hvalid⟩ hnot⟩
  · exact ⟨fun _ => by simp, fun hnot => absurd ⟨hrst, hvalid⟩ hnot⟩
  · exact ⟨fun hacc => by simp [hacc.2] at hvalid, fun _ => by simp⟩

/-- Settles O12: reset clears both bits, a command moves them as `exec_resValid` and `exec_dcValid` say, and every other
edge keeps them. -/
theorem validBitsFollowTheWrites : Obligations.ValidBitsFollowTheWrites := by
  intro s t h
  obtain ⟨hrst, rfl⟩ | ⟨hrst, hvalid, i, u, hdec, hexec, rfl⟩ | ⟨hrst, -, -, rfl⟩ | ⟨hrst, -, rfl⟩ :=
    step_cases h
  · simp [hrst]
  · obtain ⟨hresKeep, hresSet⟩ := exec_resValid hexec
    obtain ⟨hdcKeep, hdcSet⟩ := exec_dcValid hexec
    rw [nextEdge_resValid, nextEdge_dcValid]
    refine ⟨fun h1 => by simp [hrst] at h1, fun _ => hresKeep, fun _ => hdcKeep, ?_, ?_⟩
    · exact fun hu => (hresSet hu).imp_right fun hwrites => ⟨⟨hrst, hvalid⟩, i, hdec, hwrites⟩
    · exact fun hu => (hdcSet hu).imp_right fun hwrites => ⟨⟨hrst, hvalid⟩, i, hdec, hwrites⟩
  · simp +contextual [hrst]
  · simp +contextual [hrst]

/-! ### Runs -/

/-- An edge leaves the parameters (R36, R98). -/
theorem step_cfg {s t : State} (h : step s = .next t) : t.cfg = s.cfg := by
  obtain ⟨-, rfl⟩ | ⟨-, -, i, u, -, hexec, rfl⟩ | ⟨-, -, -, rfl⟩ | ⟨-, -, rfl⟩ := step_cases h
  · simp
  · obtain ⟨hcfg, -, -⟩ := exec_keeps_outside hexec
    rw [nextEdge_cfg, hcfg]
  · simp
  · simp

/-- An edge uses up the first listed edge. -/
theorem step_host {s t : State} (h : step s = .next t) : t.host = s.host.tail := by
  obtain ⟨-, rfl⟩ | ⟨-, -, i, u, -, hexec, rfl⟩ | ⟨-, -, -, rfl⟩ | ⟨-, -, rfl⟩ := step_cases h
  · simp
  · obtain ⟨-, hhost, -⟩ := exec_keeps_outside hexec
    rw [nextEdge_host, hhost]
  · simp
  · simp

/-- A run goes on from what its first edge answers. -/
theorem run_succ_of_step {s u : State} (h : step s = .next u) (k : Nat) :
    Host.Core.run core (k + 1) s = Host.Core.run core k u := by
  simp only [Host.Core.run, show core.step s = .next u from h]

/-- Settles O6, by induction on the length of the run. -/
theorem parametersAreFixed : Obligations.ParametersAreFixed := by
  intro k
  induction k with
  | zero => rintro s t ⟨⟩; rfl
  | succ k ih =>
    intro s t h
    obtain ⟨u, hstep⟩ := everyEdgeAnswersANextState s
    rw [run_succ_of_step hstep] at h
    exact (ih u t h).trans (step_cfg hstep)

/-! ### Causality -/

/-- The ports hold the first listed edge. -/
theorem inputs_of_host {s : State} {e : Inputs} {rest : List Inputs} (h : s.host = e :: rest) :
    s.inputs = e := by
  simp only [State.inputs, h]

/-- A command sees nothing of the edges listed after its own (R32, R42). -/
theorem exec_of_later {i : Instr} {s t : State} {e : Inputs} {rest : List Inputs}
    (hhost : s.host = e :: rest) (h : exec i s = .next t) (later : List Inputs) :
    exec i { s with host := e :: later } = .next { t with host := e :: later } := by
  have hin : ({ s with host := e :: later } : State).inputs = s.inputs := (inputs_of_host hhost).symm
  obtain ⟨fc, rfl, rfl⟩ | ⟨fc, rfl, hok, rfl⟩ | ⟨rfl, rfl⟩ | ⟨fc, rfl, hok, rfl⟩ | ⟨hi, hbad, rfl⟩ :=
    exec_cases h
  · rw [exec_decode, hin]; rfl
  · rw [exec_chkdec_of_crcOk fc (by rwa [hin]), hin]; rfl
  · rw [exec_decicel, hin]; rfl
  · rw [exec_chkdeci_of_crcOk fc (by rwa [hin]), hin]; rfl
  · rw [exec_of_crcMismatch hi (by rwa [hin])]; rfl

/-- Moving on with other edges to come. -/
theorem nextEdge_of_later {s : State} {e : Inputs} {rest : List Inputs} (hhost : s.host = e :: rest)
    (later : List Inputs) :
    nextEdge { s with host := e :: later } = { nextEdge s with host := later } := by
  simp only [nextEdge, hhost]

/-- An edge sees nothing of the edges listed after it (R32, R44). -/
theorem step_of_later {s t : State} {e : Inputs} {rest : List Inputs} (hhost : s.host = e :: rest)
    (h : step s = .next t) (later : List Inputs) :
    step { s with host := e :: later } = .next { t with host := later } := by
  have hin : ({ s with host := e :: later } : State).inputs = s.inputs := (inputs_of_host hhost).symm
  obtain ⟨hrst, rfl⟩ | ⟨hrst, hvalid, i, u, hdec, hexec, rfl⟩ | ⟨hrst, hvalid, ⟨err, hdec⟩, rfl⟩ |
    ⟨hrst, hvalid, rfl⟩ := step_cases h
  · rw [step_of_reset (by rwa [hin])]
    exact congrArg _ (nextEdge_of_later (s := applyReset s) hhost later)
  · obtain ⟨-, hu, -⟩ := exec_keeps_outside hexec
    rw [step_of_exec ⟨by rwa [hin], by rwa [hin]⟩ (by rwa [hin]) (exec_of_later hhost hexec later)]
    exact congrArg _ (nextEdge_of_later (hu.trans hhost) later)
  · rw [step_of_illegal ⟨by rwa [hin], by rwa [hin]⟩ (by rwa [hin])]
    exact congrArg _ (nextEdge_of_later (s := raise s statusIllegal) hhost later)
  · rw [step_of_idle (by rwa [hin]) (by rwa [hin])]
    exact congrArg _ (nextEdge_of_later (s := applyIdle s) hhost later)

/-- Settles O17, by induction on the number of edges: each one uses up the first of the list. -/
theorem laterInputsHaveNoEffect : Obligations.LaterInputsHaveNoEffect := by
  intro k
  induction k with
  | zero => rintro s t later - ⟨⟩; rfl
  | succ k ih =>
    intro s t later hlen h
    obtain ⟨u, hstep⟩ := everyEdgeAnswersANextState s
    rw [run_succ_of_step hstep] at h
    obtain ⟨e, rest, hhost⟩ := List.exists_cons_of_length_pos (Nat.lt_of_lt_of_le k.succ_pos hlen)
    have hu : u.host = rest := by rw [step_host hstep, hhost, List.tail_cons]
    have hk : k ≤ u.host.length := by simpa [hu, hhost] using hlen
    rw [hhost, List.take_succ_cons, List.cons_append, ← hu]
    exact (run_succ_of_step (step_of_later hhost hstep _) k).trans (ih u t later hk h)

/-! ### What the host reads -/

/-- Settles O13: the two sides of each valid bit. -/
theorem unwrittenResultsReadNoValue : Obligations.UnwrittenResultsReadNoValue := by
  intro s
  refine ⟨fun h => ?_, fun h => ?_, fun h => ?_, fun h => ?_⟩
  · simp [readResult, h]
  · simp [readResult, h]
  · simp [readDecicel, h]
  · simp [readDecicel, h]

/-- Settles O14: `State.outputs` copies field by field. -/
theorem outputsCopyTheRegisters : Obligations.OutputsCopyTheRegisters :=
  fun _ => ⟨rfl, rfl, rfl, rfl, rfl, rfl, rfl, rfl, rfl⟩

/-! ### Listing lines -/

/-- Each byte of a packed list is at its index (R38, R52). -/
theorem packBytes_byte (bytes : List Byte) (hlen : bytes.length ≤ 9) (i : Nat) (hi : i < bytes.length) :
    (packBytes bytes).extractLsb' (8 * i) 8 = bytes[i] := by
  induction bytes generalizing i with
  | nil => simp at hi
  | cons b bytes ih =>
    rw [List.length_cons] at hlen hi
    cases i with
    | zero => exact pack_low_byte (packBytes bytes) b
    | succ i =>
      calc (packBytes (b :: bytes)).extractLsb' (8 * (i + 1)) 8
          = (packBytes bytes).extractLsb' (8 * i) 8 :=
            pack_higher_byte (packBytes bytes) b (8 * i) _ (by omega) (by omega)
        _ = bytes[i] := ih (by omega) i (by omega)

/-- The check sees the nine bytes that a line lists, in order (R40, R52). -/
theorem spBytes_packBytes {bytes : List Byte} (h : nineBytes bytes = true) :
    spBytes (packBytes bytes) = bytes := by
  have hlen : bytes.length = 9 := by simpa [nineBytes] using h
  refine List.ext_getElem ((spBytes_length _).trans hlen.symm) fun i _ hi => ?_
  simpa [spBytes, spByte] using packBytes_byte bytes hlen.le i hi

/-- The fields of a command word are what it was put together from (R46). -/
theorem fields_commandWord (fc : Byte) (op : BitVec 3) :
    fieldFc (fc ++ 0b00000#5 ++ op) = fc ∧ fieldRsv (fc ++ 0b00000#5 ++ op) = 0b00000#5 ∧
      fieldOp (fc ++ 0b00000#5 ++ op) = op := by
  have hfc := fc.isLt
  have hop := op.isLt
  rw [fieldFc_eq, fieldRsv_eq, fieldOp_eq, commandWord_toNat]
  refine ⟨?_, ?_, ?_⟩ <;> apply BitVec.eq_of_toNat_eq <;> rw [BitVec.toNat_ofNat]
  · omega
  · simp only [BitVec.toNat_ofNat]; omega
  · omega

/-- Decoding a command's word gives the command back (R46, R47). -/
theorem decodeWord_encode (i : Instr) : decodeWord (encode i) = .ok i := by
  cases i with
  | decode fc =>
    obtain ⟨hfc, hrsv, hop⟩ := fields_commandWord fc 0b001#3
    simp [encode, decodeWord, hfc, hrsv, hop]
  | chkdec fc =>
    obtain ⟨hfc, hrsv, hop⟩ := fields_commandWord fc 0b010#3
    simp [encode, decodeWord, hfc, hrsv, hop]
  | decicel => decide
  | chkdeci fc =>
    obtain ⟨hfc, hrsv, hop⟩ := fields_commandWord fc 0b100#3
    simp [encode, decodeWord, hfc, hrsv, hop]

/-- Settles O24: the word decodes back, the packed bytes unpack in order, and DECICEL's operands fit their ports. -/
theorem listingLinesPresentTheirOperands : Obligations.ListingLinesPresentTheirOperands := by
  refine ⟨fun e fc bytes h => ⟨?_, ?_, ?_⟩, fun e s w f h => ?_⟩
  · exact ⟨rfl, rfl, decodeWord_encode _, spBytes_packBytes h⟩
  · exact ⟨rfl, rfl, decodeWord_encode _, spBytes_packBytes h⟩
  · exact ⟨rfl, rfl, decodeWord_encode _, spBytes_packBytes h⟩
  · simp only [lineWellFormed, Bool.and_eq_true, decide_eq_true_eq] at h
    obtain ⟨⟨hs, hw⟩, hf⟩ := h
    refine ⟨rfl, rfl, by simp [lineInputs, Inputs.withCommand, encode], ?_, ?_, ?_⟩
    · exact Nat.mod_eq_of_lt (by omega)
    · exact Nat.mod_eq_of_lt (by omega)
    · exact Nat.mod_eq_of_lt (by omega)

/-- Settles O50: the bytes of `.word` unpack in order; the rest is `lineInputs` itself. -/
theorem controlAndRawWordLines : Obligations.ControlAndRawWordLines :=
  fun _ _ _ => ⟨rfl, ⟨rfl, rfl⟩, ⟨rfl, rfl, rfl⟩, fun h => ⟨rfl, rfl, rfl, spBytes_packBytes h⟩⟩

/-! ### Ranges of the results -/

/-- The sign of a reading is that of the value after step 2 (R59). -/
theorem measToCel_sign (c : Config) (fc : Byte) (sp : Scratchpad) :
    (measToCel c fc sp).sign = if 32768 ≤ (stepTwoValue c fc sp).toNat then 1#1 else 0#1 :=
  signFlag_eq _

/-- A reading in sixteenths is the masked magnitude: step 5 loses nothing (R63). -/
theorem measToCel_sixteenths (c : Config) (fc : Byte) (sp : Scratchpad) :
    16 * (measToCel c fc sp).whole.toNat + (measToCel c fc sp).frac.toNat =
      (maskedMagnitude c fc sp (magnitude (stepTwoValue c fc sp))).toNat := by
  obtain ⟨hwhole, hfrac⟩ := split_toNat (maskedMagnitude c fc sp (magnitude (stepTwoValue c fc sp)))
  simp only [measToCel, hwhole, hfrac]
  omega

/-- A reading in sixteenths is at most 0x8000, and below it if positive: 0x8000 is the magnitude of 0x8000 alone, whose
sign bit is set (R59, R63). -/
theorem measToCel_sixteenths_le (c : Config) (fc : Byte) (sp : Scratchpad) :
    16 * (measToCel c fc sp).whole.toNat + (measToCel c fc sp).frac.toNat ≤
      if (measToCel c fc sp).sign = 1#1 then 32768 else 32767 := by
  have hmask := maskedMagnitude_le c fc sp (magnitude (stepTwoValue c fc sp))
  rw [magnitude_toNat] at hmask
  rw [measToCel_sixteenths, measToCel_sign]
  by_cases hneg : 32768 ≤ (stepTwoValue c fc sp).toNat
  · simp only [hneg, if_true] at hmask ⊢
    omega
  · simp only [hneg, if_false] at hmask ⊢
    exact hmask.trans (by simp; omega)

/-- Settles O29: 0x8000 sixteenths are 0x800 degrees, and leave no fraction. -/
theorem readingRange : Obligations.ReadingRange := by
  intro c fc sp
  have hle := measToCel_sixteenths_le c fc sp
  have hfrac := (measToCel c fc sp).frac.isLt
  refine ⟨?_, by omega, fun htop => ?_⟩
  · split at hle <;> omega
  · rw [htop] at hle
    split at hle
    next hsign => exact ⟨BitVec.eq_of_toNat_eq (by simp at hle ⊢; omega), hsign⟩
    next => simp at hle; omega

/-- The tenths of a decomposed reading in numbers: nothing is lost in 16 bits (R68, R73). -/
theorem tempToDecicel_toNat (sign : BitVec 1) (whole : BitVec 12) (frac : BitVec 4) :
    (tempToDecicel sign whole frac).toNat =
      whole.toNat * 10 + tenthsDigit frac + roundingTenth sign frac := by
  have hwhole := whole.isLt
  have hdigit := tenths_le sign frac
  exact Nat.mod_eq_of_lt (by omega)

/-- Ten tenths per degree and at most nine more (R70, R73). -/
theorem tempToDecicel_le (sign : BitVec 1) (whole : BitVec 12) (frac : BitVec 4) :
    (tempToDecicel sign whole frac).toNat ≤ whole.toNat * 10 + 9 := by
  have := tenths_le sign frac
  rw [tempToDecicel_toNat]; omega

/-- DECICEL's bound for all operands (R25, R73). -/
theorem tempToDecicel_le_max (sign : BitVec 1) (whole : BitVec 12) (frac : BitVec 4) :
    (tempToDecicel sign whole frac).toNat ≤ 40959 := by
  have := whole.isLt
  have := tempToDecicel_le sign whole frac
  omega

/-- The tenths of a reading: below 0x800 degrees they are at most 20479, and 0x800 is reached only as (1, 0x800, 0),
which no rounding raises (R71, R73). -/
theorem tenths_of_measToCel_le (c : Config) (fc : Byte) (sp : Scratchpad) :
    (tempToDecicel (measToCel c fc sp).sign (measToCel c fc sp).whole (measToCel c fc sp).frac).toNat ≤
      if (measToCel c fc sp).sign = 1#1 then 20480 else 20479 := by
  have hle := measToCel_sixteenths_le c fc sp
  split at hle
  next hsign =>
    have hround : roundingTenth 1#1 (measToCel c fc sp).frac = 0 := by simp [roundingTenth]
    rw [if_pos hsign, hsign, tempToDecicel_toNat, hround, tenthsDigit]
    omega
  next hsign =>
    have := tempToDecicel_le (measToCel c fc sp).sign (measToCel c fc sp).whole (measToCel c fc sp).frac
    rw [if_neg hsign]
    omega

/-- Settles O40: the two general bounds, and the three operands that reach them. -/
theorem tenthsRange : Obligations.TenthsRange := by
  refine ⟨tempToDecicel_le_max, fun c fc sp => ?_, by decide, by decide, by decide⟩
  have hle := tenths_of_measToCel_le c fc sp
  refine ⟨hle.trans (by split <;> omega), fun hpos => ?_⟩
  rwa [if_neg (by simp [hpos])] at hle

/-! ### The invariant -/

/-- The invariant speaks of registers only. -/
theorem inv_nextEdge {s : State} (h : Inv s) : Inv (nextEdge s) := by
  unfold nextEdge
  split
  · exact { h with }
  · exact { h with }

/-- Reset establishes the invariant (R96). -/
theorem inv_applyReset (s : State) : Inv (applyReset s) where
  noResult _ := ⟨rfl, rfl, rfl⟩
  noDecicel _ := ⟨rfl, rfl⟩
  wholeBound := by simp
  wholeTop h := by simp at h
  decicelBound := by simp
  noneMeansFresh _ := ⟨rfl, rfl, rfl⟩
  okMeansWritten h := by simp [statusNone, statusOk] at h

/-- An idle edge only drops the strobe (R30). -/
theorem inv_applyIdle {s : State} (h : Inv s) : Inv (applyIdle s) :=
  { h with noneMeansFresh := fun hnone =>
      let ⟨hres, hdc, _⟩ := h.noneMeansFresh hnone
      ⟨hres, hdc, rfl⟩ }

/-- A status that is neither NONE nor OK says nothing of the groups (R27, R85). -/
theorem inv_raise {s : State} {code : BitVec 2} (h : Inv s) (hnone : code ≠ statusNone)
    (hok : code ≠ statusOk) : Inv (raise s code) :=
  { h with
    noneMeansFresh := fun hc => absurd hc hnone
    okMeansWritten := fun hc => absurd hc hok }

/-- A command that completes with a reading in the result group keeps the invariant, by the reading's range (R63). -/
theorem inv_complete_writeReading {s : State} (h : Inv s) (c : Config) (fc : Byte) (sp : Scratchpad) :
    Inv (complete (writeReading s (measToCel c fc sp))) :=
  let ⟨hwhole, _, htop⟩ := readingRange c fc sp
  { h with
    noResult := fun hres => by simp at hres
    wholeBound := hwhole
    wholeTop := htop
    noneMeansFresh := fun hnone => by simp [statusNone, statusOk] at hnone
    okMeansWritten := fun _ => .inl rfl }

/-- A command that completes with tenths in the decicel group keeps the invariant, by the range of the tenths (R73). -/
theorem inv_complete_writeTenths {s : State} (h : Inv s) (r : Reading) :
    Inv (complete (writeTenths s r)) :=
  { h with
    noDecicel := fun hdc => by simp at hdc
    decicelBound := tempToDecicel_le_max r.sign r.whole r.frac
    noneMeansFresh := fun hnone => by simp [statusNone, statusOk] at hnone
    okMeansWritten := fun _ => .inr rfl }

/-- Every command keeps the invariant. CHKDECI writes its two groups one after the other, as DECODE and DECICEL would. -/
theorem inv_exec {i : Instr} {s t : State} (hinv : Inv s) (h : exec i s = .next t) : Inv t := by
  obtain ⟨fc, -, rfl⟩ | ⟨fc, -, -, rfl⟩ | ⟨-, rfl⟩ | ⟨fc, -, -, rfl⟩ | ⟨-, -, rfl⟩ := exec_cases h
  · exact inv_complete_writeReading hinv ..
  · exact inv_complete_writeReading hinv ..
  · exact inv_complete_writeTenths hinv _
  · exact inv_complete_writeTenths (inv_complete_writeReading hinv s.cfg fc s.inputs.spIn) _
  · exact inv_raise hinv (by decide) (by decide)

/-- Settles O19: each case of R30 keeps the invariant, and moving on keeps the registers. -/
theorem everyEdgeKeepsTheInvariant : Obligations.EveryEdgeKeepsTheInvariant := by
  intro s t hinv h
  obtain ⟨-, rfl⟩ | ⟨-, -, i, u, -, hexec, rfl⟩ | ⟨-, -, -, rfl⟩ | ⟨-, -, rfl⟩ := step_cases h
  · exact inv_nextEdge (inv_applyReset s)
  · exact inv_nextEdge (inv_exec hinv hexec)
  · exact inv_nextEdge (inv_raise hinv (by decide) (by decide))
  · exact inv_nextEdge (inv_applyIdle hinv)

end Sys2Proof.Proofs
end

section
/-! PROOFS. The scratchpad port as memory (20_memory.md): its bytes and its raw value as numbers (R38, R40). -/

namespace Sys2Proof.Proofs

open Sys2Proof.Machine

/-- Bits 8i+7:8i of the port are its digit `i` in base 256 (R38). -/
theorem spByte_toNat (sp : Scratchpad) (i : Fin 9) :
    (spByte sp i).toNat = sp.toNat / 256 ^ i.val % 256 := by
  have hpow : 2 ^ (8 * i.val) = 256 ^ i.val := Nat.pow_mul 2 8 i.val
  rw [spByte, BitVec.extractLsb'_toNat, Nat.shiftRight_eq_div_pow, hpow]

/-- The raw value has SP[1] above SP[0] (R40). -/
theorem spRaw_toNat (sp : Scratchpad) :
    (spRaw sp).toNat = (spByte sp 1).toNat * 256 + (spByte sp 0).toNat :=
  append_byte_toNat _ _

/-- Settles O20: the digits of the port in base 256, and the raw value made of the lowest two. -/
theorem scratchpadByteOrder : Obligations.ScratchpadByteOrder :=
  fun sp => ⟨spByte_toNat sp, spRaw_toNat sp⟩

end Sys2Proof.Proofs
end

section
/-! PROOFS. The command words (30_encoding.md): the opcode map by the low byte, its count, the round trip of the decoder
and the encoder, and the words written out from the encoding (R46, R47, R52, R53). -/

namespace Sys2Proof.Proofs

open Sys2Proof.Machine

/-! ### The low byte of a command word -/

/-- A masked word is a match value exactly if that is its low byte (R47). -/
theorem masked_eq_iff (w m : Word) : w &&& 0x00FF#16 = m ↔ w.toNat % 256 = m.toNat := by
  have hmask : (w &&& 0x00FF#16).toNat = w.toNat % 256 := by
    rw [BitVec.toNat_and]
    exact Nat.and_two_pow_sub_one_eq_mod w.toNat 8
  rw [← BitVec.toNat_inj, hmask]

/-- RSV is 0 exactly if bits 7:3 of the number are (R46). -/
theorem fieldRsv_eq_zero_iff (w : Word) : fieldRsv w = 0b00000#5 ↔ w.toNat / 8 % 32 = 0 := by
  rw [fieldRsv_eq, ← BitVec.toNat_inj, BitVec.toNat_ofNat]
  rfl

/-- A low byte below 8 is an operation under RSV of zeros (R46). -/
theorem fields_of_lowByte {w : Word} {op : BitVec 3} (hlow : w.toNat % 256 = op.toNat) :
    fieldRsv w = 0b00000#5 ∧ fieldOp w = op := by
  have hop := op.isLt
  refine ⟨(fieldRsv_eq_zero_iff w).2 (by omega), ?_⟩
  rw [fieldOp_eq, ← BitVec.toNat_inj, BitVec.toNat_ofNat]
  omega

/-! ### The opcode map -/

/-- The opcode map, read forwards from the low byte (R47). -/
theorem decodeWord_of_lowByte (w : Word) :
    (w.toNat / 8 % 32 ≠ 0 → decodeWord w = .error (.reservedBits (BitVec.ofNat 5 (w.toNat / 8)))) ∧
    (w.toNat % 256 = 1 → decodeWord w = .ok (.decode (BitVec.ofNat 8 (w.toNat / 256)))) ∧
    (w.toNat % 256 = 2 → decodeWord w = .ok (.chkdec (BitVec.ofNat 8 (w.toNat / 256)))) ∧
    (w.toNat % 256 = 3 → decodeWord w = .ok .decicel) ∧
    (w.toNat % 256 = 4 → decodeWord w = .ok (.chkdeci (BitVec.ofNat 8 (w.toNat / 256)))) ∧
    (w.toNat % 256 ∈ [0, 5, 6, 7] →
      decodeWord w = .error (.unusedOpcode (BitVec.ofNat 3 w.toNat))) := by
  rw [← fieldRsv_eq, ← fieldFc_eq, ← fieldOp_eq]
  refine ⟨fun hrsv => ?_, fun hlow => ?_, fun hlow => ?_, fun hlow => ?_, fun hlow => ?_, fun hlow => ?_⟩
  · exact if_neg (mt (fieldRsv_eq_zero_iff w).1 hrsv)
  · obtain ⟨hrsv, hop⟩ := fields_of_lowByte (op := 1#3) hlow
    simp [decodeWord, hrsv, hop]
  · obtain ⟨hrsv, hop⟩ := fields_of_lowByte (op := 2#3) hlow
    simp [decodeWord, hrsv, hop]
  · obtain ⟨hrsv, hop⟩ := fields_of_lowByte (op := 3#3) hlow
    simp [decodeWord, hrsv, hop]
  · obtain ⟨hrsv, hop⟩ := fields_of_lowByte (op := 4#3) hlow
    simp [decodeWord, hrsv, hop]
  · obtain ⟨op, hunused, hop⟩ : ∃ op ∈ [0#3, 5#3, 6#3, 7#3], w.toNat % 256 = op.toNat := by
      simpa using hlow
    obtain ⟨hrsv, rfl⟩ := fields_of_lowByte hop
    simp only [List.mem_cons, List.not_mem_nil, or_false] at hunused
    obtain h | h | h | h := hunused
    all_goals simp [decodeWord, hrsv, h]

/-- The opcode map, read backwards: a word that decodes has the low byte of a row, and FC is its high byte (R47). -/
theorem decodeWord_ok_cases {w : Word} {i : Instr} (h : decodeWord w = .ok i) :
    (w.toNat % 256 = 1 ∧ i = .decode (BitVec.ofNat 8 (w.toNat / 256))) ∨
    (w.toNat % 256 = 2 ∧ i = .chkdec (BitVec.ofNat 8 (w.toNat / 256))) ∨
    (w.toNat % 256 = 3 ∧ i = .decicel) ∨
    (w.toNat % 256 = 4 ∧ i = .chkdeci (BitVec.ofNat 8 (w.toNat / 256))) := by
  obtain ⟨hreserved, hdecode, hchkdec, hdecicel, hchkdeci, hunused⟩ := decodeWord_of_lowByte w
  have hlow : w.toNat / 8 % 32 ≠ 0 ∨ w.toNat % 256 = 1 ∨ w.toNat % 256 = 2 ∨ w.toNat % 256 = 3 ∨
      w.toNat % 256 = 4 ∨ w.toNat % 256 ∈ [0, 5, 6, 7] := by
    simp only [List.mem_cons, List.not_mem_nil, or_false]
    omega
  obtain hlow | hlow | hlow | hlow | hlow | hlow := hlow
  · simp [hreserved hlow] at h
  · exact .inl ⟨hlow, Except.ok.inj (h.symm.trans (hdecode hlow))⟩
  · exact .inr (.inl ⟨hlow, Except.ok.inj (h.symm.trans (hchkdec hlow))⟩)
  · exact .inr (.inr (.inl ⟨hlow, Except.ok.inj (h.symm.trans (hdecicel hlow))⟩))
  · exact .inr (.inr (.inr ⟨hlow, Except.ok.inj (h.symm.trans (hchkdeci hlow))⟩))
  · simp [hunused hlow] at h

/-- A word that decodes lies in the row of its command (R47). -/
theorem masked_of_decodeWord {w : Word} {i : Instr} (h : decodeWord w = .ok i) :
    w &&& 0x00FF#16 = Laws.TableRow.matchOf i := by
  rw [masked_eq_iff]
  obtain ⟨hlow, rfl⟩ | ⟨hlow, rfl⟩ | ⟨hlow, rfl⟩ | ⟨hlow, rfl⟩ := decodeWord_ok_cases h
  all_goals exact hlow

/-- A word decodes to the command of a row exactly if its masked bits are the row's match value (R47). -/
theorem decodeWord_row_iff (w : Word) :
    ((∃ fc, decodeWord w = .ok (.decode fc)) ↔ w &&& 0x00FF#16 = 0x0001#16) ∧
    ((∃ fc, decodeWord w = .ok (.chkdec fc)) ↔ w &&& 0x00FF#16 = 0x0002#16) ∧
    (decodeWord w = .ok .decicel ↔ w &&& 0x00FF#16 = 0x0003#16) ∧
    ((∃ fc, decodeWord w = .ok (.chkdeci fc)) ↔ w &&& 0x00FF#16 = 0x0004#16) := by
  obtain ⟨-, hdecode, hchkdec, hdecicel, hchkdeci, -⟩ := decodeWord_of_lowByte w
  exact ⟨⟨fun ⟨_, h⟩ => masked_of_decodeWord h, fun h => ⟨_, hdecode ((masked_eq_iff w _).1 h)⟩⟩,
    ⟨fun ⟨_, h⟩ => masked_of_decodeWord h, fun h => ⟨_, hchkdec ((masked_eq_iff w _).1 h)⟩⟩,
    ⟨fun h => masked_of_decodeWord h, fun h => hdecicel ((masked_eq_iff w _).1 h)⟩,
    ⟨fun ⟨_, h⟩ => masked_of_decodeWord h, fun h => ⟨_, hchkdeci ((masked_eq_iff w _).1 h)⟩⟩⟩

/-! ### How many words decode -/

/-- A word decodes exactly if its low byte is that of a row (R47). -/
theorem exists_decodeWord_ok_iff (w : Word) :
    (∃ i, decodeWord w = .ok i) ↔ 1 ≤ w.toNat % 256 ∧ w.toNat % 256 ≤ 4 := by
  obtain ⟨-, hdecode, hchkdec, hdecicel, hchkdeci, -⟩ := decodeWord_of_lowByte w
  refine ⟨fun ⟨i, h⟩ => ?_, fun h => ?_⟩
  · have hrow := decodeWord_ok_cases h
    omega
  · obtain h | h | h | h :
        w.toNat % 256 = 1 ∨ w.toNat % 256 = 2 ∨ w.toNat % 256 = 3 ∨ w.toNat % 256 = 4 := by omega
    · exact ⟨_, hdecode h⟩
    · exact ⟨_, hchkdec h⟩
    · exact ⟨_, hdecicel h⟩
    · exact ⟨_, hchkdeci h⟩

/-- The same of a number as a 16-bit opcode-table word (R51). -/
theorem decodeTableWord_isSome_iff (n : Nat) :
    (decodeTableWord 16 n).isSome = true ↔ 1 ≤ n % 256 ∧ n % 256 ≤ 4 := by
  have hword : (decodeTableWord 16 n).isSome = true ↔
      ∃ i, decodeWord (BitVec.ofNat 16 (n % 2 ^ 16)) = .ok i := by
    rw [decodeTableWord, if_pos (by decide)]
    cases decodeWord (BitVec.ofNat 16 (n % 2 ^ 16)) <;> simp
  have hlow : (BitVec.ofNat 16 (n % 2 ^ 16)).toNat % 256 = n % 256 := by
    rw [BitVec.toNat_ofNat]
    omega
  rw [hword, exists_decodeWord_ok_iff, hlow]

/-- A predicate of period `a` is met equally often in each of `k` periods. -/
theorem count_mul_of_periodic {p : Nat → Prop} [DecidablePred p] {a : Nat} (hp : Function.Periodic p a)
    (k : Nat) : Nat.count p (k * a) = k * Nat.count p a := by
  induction k with
  | zero => simp
  | succ k ih =>
    have hshift : (fun n => p (k * a + n)) = p := by
      funext n
      rw [Nat.add_comm]
      exact hp.nat_mul k n
    simp only [Nat.succ_mul, Nat.count_add, ih, hshift]

/-- Four of the 256 low bytes are those of a row. -/
theorem count_rowBytes : Nat.count (fun n => 1 ≤ n % 256 ∧ n % 256 ≤ 4) 256 = 4 := by
  have hrows : (Finset.range 256).filter (fun n => 1 ≤ n % 256 ∧ n % 256 ≤ 4) = Finset.Icc 1 4 := by
    ext n
    simp only [Finset.mem_filter, Finset.mem_range, Finset.mem_Icc]
    omega
  rw [Nat.count_eq_card_filter_range, hrows]
  rfl

/-- Four low bytes decode under each of the 256 high bytes (R47). -/
theorem count_decodeTableWord :
    Nat.count (fun n => (decodeTableWord 16 n).isSome = true) (2 ^ 16) = 1024 := by
  have hperiod : Function.Periodic (fun n => 1 ≤ n % 256 ∧ n % 256 ≤ 4) 256 := fun n => by simp
  simp only [decodeTableWord_isSome_iff]
  exact (count_mul_of_periodic hperiod 256).trans (congrArg (256 * ·) count_rowBytes)

/-- Settles O21: the map by the low byte, its rows, and its count. -/
theorem decodingFollowsTheOpcodeMap : Obligations.DecodingFollowsTheOpcodeMap :=
  ⟨decodeWord_of_lowByte, decodeWord_row_iff, count_decodeTableWord⟩

/-! ### The round trip -/

/-- A word is put together from its high byte and an operation as its low byte (R46). -/
theorem commandWord_of_lowByte {w : Word} {op : BitVec 3} (hlow : w.toNat % 256 = op.toNat) :
    BitVec.ofNat 8 (w.toNat / 256) ++ 0b00000#5 ++ op = w := by
  have hw := w.isLt
  apply BitVec.eq_of_toNat_eq
  rw [commandWord_toNat, BitVec.toNat_ofNat]
  omega

/-- A decoded command encodes to its word, DECICEL to its word with the FC bits 0 (R46, R49, R52). -/
theorem encode_of_decodeWord {w : Word} {i : Instr} (h : decodeWord w = .ok i) :
    encode i = if i = .decicel then w &&& 0x00FF#16 else w := by
  obtain ⟨hlow, rfl⟩ | ⟨hlow, rfl⟩ | ⟨hlow, rfl⟩ | ⟨hlow, rfl⟩ := decodeWord_ok_cases h
  · exact commandWord_of_lowByte hlow
  · exact commandWord_of_lowByte hlow
  · exact (masked_of_decodeWord h).symm
  · exact commandWord_of_lowByte hlow

/-- Settles O22: the fields of a command's word are the command's, and a word that decodes is made of its fields. -/
theorem decodeAndEncodeAgree : Obligations.DecodeAndEncodeAgree :=
  ⟨fun i _ => decodeWord_encode i, fun _ _ => encode_of_decodeWord⟩

/-! ### Words written out from the encoding -/

/-- Settles O23: the decoder evaluates each of the thirteen words. -/
theorem writtenOutWordsDecode : Obligations.WrittenOutWordsDecode := by
  unfold Obligations.WrittenOutWordsDecode
  decide

/-- Settles O51: `expand` answers line by line, and `encode` evaluates each default word. -/
theorem pseudoInstructionsExpand : Obligations.PseudoInstructionsExpand :=
  ⟨fun _ _ => ⟨rfl, rfl, rfl, rfl, rfl, rfl, rfl⟩, fun _ _ => ⟨rfl, rfl, rfl, rfl, rfl, rfl⟩⟩

end Sys2Proof.Proofs
end

section
/-! PROOFS. The decode family (40_decode.md): the reading of each variant in sixteenths of a degree, the bytes it is
taken from, a corrupted trailing byte, and what DECODE and CHKDEC write (R57 to R67). -/

namespace Sys2Proof.Proofs

open Sys2Proof.Machine Sys2Proof.Safety

/-! ### Steps 2 and 4 by family code -/

/-- No family code selects both variants (R8). -/
theorem fcConfig_ne_fcLegacy (c : Config) : c.fcConfig ≠ c.fcLegacy := by
  simpa using c.distinct

/-- The legacy variant corrects the raw value by the count in SP[6] (R56, R57). -/
theorem stepTwoValue_fcLegacy (c : Config) (sp : Scratchpad) :
    stepTwoValue c c.fcLegacy sp = legacyValue (spRaw sp) (spByte sp 6) := if_pos rfl

/-- Every other family code takes the raw value as it is (R58). -/
theorem stepTwoValue_of_ne {c : Config} {fc : Byte} (h : fc ≠ c.fcLegacy) (sp : Scratchpad) :
    stepTwoValue c fc sp = spRaw sp := if_neg h

/-- The configurable variant clears the `12 - res` low bits of the magnitude (R56, R61). -/
theorem maskedMagnitude_fcConfig_toNat (c : Config) (sp : Scratchpad) (m : Word) :
    (maskedMagnitude c c.fcConfig sp m).toNat =
      m.toNat / 2 ^ (12 - resolution c.resLo (spByte sp c.confIndex)) *
        2 ^ (12 - resolution c.resLo (spByte sp c.confIndex)) := by
  rw [maskedMagnitude, if_pos rfl, and_resMask_toNat]

/-- Every other family code leaves the magnitude (R56). -/
theorem maskedMagnitude_of_ne {c : Config} {fc : Byte} (h : fc ≠ c.fcConfig) (sp : Scratchpad) (m : Word) :
    maskedMagnitude c fc sp m = m := if_neg h

/-! ### The reading of each variant in numbers -/

/-- A reading in numbers: the sign and the magnitude of the value after step 2, the magnitude masked as step 4 does
(R59, R63). -/
theorem measToCel_of_toNat {c : Config} {fc : Byte} {sp : Scratchpad} {v : Nat} {masked : Nat → Nat}
    (hvalue : (stepTwoValue c fc sp).toNat = v)
    (hmask : ∀ m, (maskedMagnitude c fc sp m).toNat = masked m.toNat) :
    (v < 32768 → (measToCel c fc sp).sign = 0#1 ∧
      16 * (measToCel c fc sp).whole.toNat + (measToCel c fc sp).frac.toNat = masked v) ∧
    (32768 ≤ v → (measToCel c fc sp).sign = 1#1 ∧
      16 * (measToCel c fc sp).whole.toNat + (measToCel c fc sp).frac.toNat = masked (65536 - v)) := by
  rw [measToCel_sixteenths, measToCel_sign, hmask, magnitude_toNat, hvalue]
  refine ⟨fun hpos => ?_, fun hneg => ?_⟩
  · rw [if_neg (Nat.not_le.2 hpos), if_neg (Nat.not_le.2 hpos)]
    exact ⟨rfl, rfl⟩
  · rw [if_pos hneg, if_pos hneg]
    exact ⟨rfl, rfl⟩

/-- Settles O25: the value after step 2 is R57's, and step 4 leaves it, since the legacy code is not the configurable
one. -/
theorem legacyReading : Obligations.LegacyReading := by
  intro c sp
  refine measToCel_of_toNat (masked := id) ?_ fun m => ?_
  · rw [stepTwoValue_fcLegacy, legacyValue_toNat, spRaw_toNat]
  · rw [maskedMagnitude_of_ne (fcConfig_ne_fcLegacy c).symm, id]

/-- The low bits cleared at a resolution are 3 less the two bits at RES_LO (R60, R61). -/
theorem clearedBits_eq (lo : Fin 7) (conf : Byte) :
    12 - resolution lo conf = 3 - conf.toNat / 2 ^ lo.val % 4 := by
  rw [resolution_eq]; omega

/-- Settles O26: step 2 leaves the raw value, and step 4 rounds its magnitude down to a multiple of the unit. -/
theorem configurableReading : Obligations.ConfigurableReading := by
  intro c sp raw unit r
  refine measToCel_of_toNat (masked := fun m => m / unit * unit) ?_ fun m => ?_
  · rw [stepTwoValue_of_ne (fcConfig_ne_fcLegacy c), spRaw_toNat]
  · rw [maskedMagnitude_fcConfig_toNat, clearedBits_eq]

/-- Settles O27: steps 2 and 4 both leave their value. -/
theorem passThroughReading : Obligations.PassThroughReading := by
  intro c fc sp hlegacy hconfig
  refine measToCel_of_toNat (masked := id) ?_ fun m => ?_
  · rw [stepTwoValue_of_ne hlegacy, spRaw_toNat]
  · rw [maskedMagnitude_of_ne hconfig, id]

/-! ### What masking leaves of the fraction -/

/-- The fractional code is the masked magnitude modulo 16 (R63). -/
theorem measToCel_frac_toNat (c : Config) (fc : Byte) (sp : Scratchpad) :
    (measToCel c fc sp).frac.toNat =
      (maskedMagnitude c fc sp (magnitude (stepTwoValue c fc sp))).toNat % 16 :=
  (split_toNat _).2

/-- At most three bits are cleared, so the cleared unit divides a whole degree (R60, R61). -/
theorem clearedUnit_dvd_sixteen (lo : Fin 7) (conf : Byte) : 2 ^ (12 - resolution lo conf) ∣ 16 := by
  obtain ⟨hlow, -⟩ := resolution_bounds lo conf
  exact Nat.pow_dvd_pow 2 (n := 4) (by omega)

/-- Settles O28: the cleared unit divides the masked magnitude and a whole degree, so it divides what is left over. -/
theorem reducedResolutionClearsLowBits : Obligations.ReducedResolutionClearsLowBits := by
  intro c sp
  apply Nat.mod_eq_zero_of_dvd
  rw [measToCel_frac_toNat, Nat.dvd_mod_iff (clearedUnit_dvd_sixteen _ _), maskedMagnitude_fcConfig_toNat]
  exact Nat.dvd_mul_left _ _

/-- Settles O31: both readings evaluated. -/
theorem maskingCanGiveNegativeZero : Obligations.MaskingCanGiveNegativeZero := by
  unfold Obligations.MaskingCanGiveNegativeZero
  decide

/-! ### The bytes a reading is taken from -/

/-- The raw value is taken from SP[0] and SP[1] (R40). -/
theorem spRaw_congr {sp sp' : Scratchpad} (h0 : spByte sp 0 = spByte sp' 0) (h1 : spByte sp 1 = spByte sp' 1) :
    spRaw sp = spRaw sp' := by
  rw [spRaw, spRaw, h0, h1]

/-- Step 2 reads the raw value and, for the legacy variant, SP[6] (R57, R58, R64). -/
theorem stepTwoValue_congr {c : Config} {fc : Byte} {sp sp' : Scratchpad} (hraw : spRaw sp = spRaw sp')
    (hcount : fc = c.fcLegacy → spByte sp 6 = spByte sp' 6) :
    stepTwoValue c fc sp = stepTwoValue c fc sp' := by
  by_cases h : fc = c.fcLegacy
  · rw [h, stepTwoValue_fcLegacy, stepTwoValue_fcLegacy, hraw, hcount h]
  · rw [stepTwoValue_of_ne h, stepTwoValue_of_ne h, hraw]

/-- Step 4 reads SP[CONF_INDEX], for the configurable variant alone (R61, R64). -/
theorem maskedMagnitude_congr {c : Config} {fc : Byte} {sp sp' : Scratchpad}
    (hconf : fc = c.fcConfig → spByte sp c.confIndex = spByte sp' c.confIndex) (m : Word) :
    maskedMagnitude c fc sp m = maskedMagnitude c fc sp' m := by
  by_cases h : fc = c.fcConfig
  · rw [maskedMagnitude, maskedMagnitude, hconf h]
  · rw [maskedMagnitude_of_ne h, maskedMagnitude_of_ne h]

/-- Settles O30: steps 2 and 4, all that looks at the scratchpad, read only the bytes of `readsByte`. -/
theorem ignoredBytesDoNotMatter : Obligations.IgnoredBytesDoNotMatter := by
  intro c fc sp sp' h
  have hraw : spRaw sp = spRaw sp' := spRaw_congr (h 0 (.inl rfl)) (h 1 (.inr (.inl rfl)))
  have hvalue : stepTwoValue c fc sp = stepTwoValue c fc sp' :=
    stepTwoValue_congr hraw fun hfc => h 6 (.inr (.inr (.inl ⟨hfc, rfl⟩)))
  have hmask : ∀ m, maskedMagnitude c fc sp m = maskedMagnitude c fc sp' m :=
    maskedMagnitude_congr fun hfc => h c.confIndex (.inr (.inr (.inr ⟨hfc, rfl⟩)))
  simp only [measToCel, hvalue, hmask]

/-! ### The CRC check of a scratchpad -/

/-- The nine bytes the check sees, written out (R40, R62). -/
theorem spBytes_eq (sp : Scratchpad) :
    spBytes sp = [spByte sp 0, spByte sp 1, spByte sp 2, spByte sp 3, spByte sp 4, spByte sp 5,
      spByte sp 6, spByte sp 7, spByte sp 8] := rfl

/-- Settles O32: the check's definition, its bytes written out. -/
theorem crcChecksAllNineBytes : Obligations.CrcChecksAllNineBytes := by
  intro c sp
  rw [crcOk_iff, spBytes_eq]

/-- Scratchpads that agree but for the trailing byte have the same first eight bytes. -/
theorem take_spBytes_congr {sp sp' : Scratchpad} (h : ∀ i : Fin 9, i ≠ 8 → spByte sp i = spByte sp' i) :
    (spBytes sp).take 8 = (spBytes sp').take 8 := by
  have hfront : ∀ i ∈ (List.finRange 9).take 8, i ≠ 8 := by decide
  rw [spBytes, spBytes, ← List.map_take, ← List.map_take]
  exact List.map_congr_left fun i hi => h i (hfront i hi)

/-- Settles O34: a scratchpad passes only if its trailing byte is the CRC of the first eight (C2), and two that agree in
these have one such byte. -/
theorem corruptedTrailingByteIsCaught : Obligations.CorruptedTrailingByteIsCaught := by
  intro c sp sp' href hsame hlast hok
  rw [← Bool.not_eq_true]
  intro hok'
  apply hlast
  calc spByte sp 8
      = referenceCrc8 ((spBytes sp).take 8) := ((referenceCrcMatchesLastByte c sp href).1 hok).symm
    _ = referenceCrc8 ((spBytes sp').take 8) := by rw [take_spBytes_congr hsame]
    _ = spByte sp' 8 := (referenceCrcMatchesLastByte c sp' href).1 hok'

/-! ### What DECODE and CHKDEC write -/

/-- Settles O36: the named writes of `exec_decode` are the record update of the statement; V-D1 is evaluated. -/
theorem decodeWritesTheReading : Obligations.DecodeWritesTheReading :=
  ⟨exec_decode, by decide⟩

/-- Settles O37: the two sides of the check; of the examples, the all-zero scratchpad passes by O35. -/
theorem chkdecIsGatedByTheCrc : Obligations.ChkdecIsGatedByTheCrc := by
  obtain ⟨-, -, hzeros, -⟩ := referenceCrcOnKnownLists
  refine ⟨?_, by decide +kernel, hzeros, by decide⟩
  intro fc s r
  by_cases hok : crcOk s.cfg s.inputs.spIn = true
  · rw [exec_chkdec_of_crcOk fc hok, if_pos hok]
    rfl
  · rw [exec_of_crcMismatch (.inl ⟨fc, rfl⟩) (Bool.eq_false_of_not_eq_true hok), if_neg hok]
    rfl

end Sys2Proof.Proofs
end

section
/-! PROOFS. The decicelsius family (41_decicel.md): the tenths of a decomposed reading, digit by digit and against the
exact magnitude, the combined signed value, and what DECICEL and CHKDECI write (R68 to R79). -/

namespace Sys2Proof.Proofs

open Sys2Proof.Machine Sys2Proof.Safety

/-! ### The rounding tenth -/

/-- A negative reading is not rounded (R71). -/
theorem roundingTenth_negative (frac : BitVec 4) : roundingTenth 1#1 frac = 0 := by
  simp [roundingTenth]

/-- A positive reading whose code is in the set gains one tenth (R71). -/
theorem roundingTenth_of_mem {frac : BitVec 4} (h : frac.toNat ∈ roundUpCodes) :
    roundingTenth 0#1 frac = 1 := if_pos ⟨rfl, h⟩

/-- A code outside the set gains nothing, whatever the sign (R71). -/
theorem roundingTenth_of_not_mem {frac : BitVec 4} (h : frac.toNat ∉ roundUpCodes) (sign : BitVec 1) :
    roundingTenth sign frac = 0 := if_neg fun hround => h hround.2

/-! ### The tenths digit

A sixteenth of a degree is 5/8 of a tenth. -/

/-- The digit before compensation rounds down (R69). -/
theorem tenthsDigit_eq_floor (frac : BitVec 4) : tenthsDigit frac = 5 * frac.toNat / 8 := by
  unfold tenthsDigit
  omega

/-- The rounding set makes the digit of a positive reading round half up: this is why those eight codes (R71, R79). -/
theorem positiveDigit_eq_roundHalfUp (frac : BitVec 4) :
    tenthsDigit frac + roundingTenth 0#1 frac = (5 * frac.toNat + 4) / 8 := by
  revert frac; decide

/-- The tenths of a negative reading are rounded down (R69, R71, R78). -/
theorem tempToDecicel_negative_toNat (whole : BitVec 12) (frac : BitVec 4) :
    (tempToDecicel 1#1 whole frac).toNat = 10 * whole.toNat + tenthsDigit frac := by
  rw [tempToDecicel_toNat, roundingTenth_negative, Nat.mul_comm, Nat.add_zero]

/-- The tenths of a positive reading are rounded half up (R71, R79). -/
theorem tempToDecicel_positive_toNat (whole : BitVec 12) (frac : BitVec 4) :
    (tempToDecicel 0#1 whole frac).toNat = 10 * whole.toNat + (5 * frac.toNat + 4) / 8 := by
  rw [tempToDecicel_toNat, Nat.add_assoc, positiveDigit_eq_roundHalfUp, Nat.mul_comm]

/-- Settles O38: nothing is lost in 16 bits, and the two addends are the model's digit and rounding tenth. -/
theorem tenthsAreExact : Obligations.TenthsAreExact := by
  intro sign whole frac
  rw [tempToDecicel_toNat, tenthsDigit, roundingTenth, roundUpCodes, Nat.mul_comm whole.toNat,
    Nat.mul_comm frac.toNat]

/-- The positive column of R72's table rounds 5/8 of a code half up. -/
theorem positiveColumn_eq (frac : BitVec 4) :
    (5 * frac.toNat + 4) / 8 = [0, 1, 1, 2, 3, 3, 4, 4, 5, 6, 6, 7, 8, 8, 9, 9].getD frac.toNat 0 := by
  revert frac; decide

/-- The negative column of R72's table rounds 5/8 of a code down. -/
theorem negativeColumn_eq (frac : BitVec 4) :
    tenthsDigit frac = [0, 0, 1, 1, 2, 3, 3, 4, 5, 5, 6, 6, 7, 8, 8, 9].getD frac.toNat 0 := by
  revert frac; decide

/-- Settles O39: the whole degrees split off, and each column lists its digit for the sixteen codes. -/
theorem tenthsTable : Obligations.TenthsTable := by
  intro whole frac
  rw [tempToDecicel_positive_toNat, tempToDecicel_negative_toNat, positiveColumn_eq, negativeColumn_eq]
  exact ⟨rfl, rfl⟩

/-- Settles O41: the two signs differ in the rounding tenth alone. -/
theorem roundingIsPositiveOnly : Obligations.RoundingIsPositiveOnly := by
  intro whole frac
  refine ⟨?_, fun hmem => ?_, fun hmem => ?_⟩
  · rw [tempToDecicel_negative_toNat, tenthsDigit, Nat.mul_comm frac.toNat]
  · rw [tempToDecicel_toNat, tempToDecicel_toNat, roundingTenth_of_mem hmem, roundingTenth_negative,
      Nat.add_zero]
  · rw [tempToDecicel, tempToDecicel, roundingTenth_of_not_mem hmem, roundingTenth_of_not_mem hmem]

/-- Settles O42: rounding half up errs by at most half a tenth either way, rounding down by less than a tenth. -/
theorem tenthsAccuracy : Obligations.TenthsAccuracy := by
  intro whole frac exact pos neg
  have hpos : pos = 8 * (10 * whole.toNat + (5 * frac.toNat + 4) / 8) :=
    congrArg (8 * ·) (tempToDecicel_positive_toNat whole frac)
  have hneg : neg = 8 * (10 * whole.toNat + 5 * frac.toNat / 8) := by
    rw [← tenthsDigit_eq_floor, ← tempToDecicel_negative_toNat]
  have hexact : exact = 5 * (16 * whole.toNat + frac.toNat) := rfl
  exact ⟨by omega, by omega⟩

/-! ### The combined signed value -/

/-- With the sign set the combined value is minus the magnitude (R76). -/
theorem signedDecicel_negative {s : State} (h : s.dcSign = 1#1) :
    signedDecicel s = -(s.decicel.toNat : Int) := if_pos h

/-- With the sign clear the combined value is the magnitude (R76). -/
theorem signedDecicel_positive {s : State} (h : s.dcSign = 0#1) :
    signedDecicel s = (s.decicel.toNat : Int) := if_neg (by simp [h])

/-- A bound on the magnitude for each sign bounds the combined value on each side (R76). -/
theorem signedDecicel_bounds {s : State} {below above : Nat}
    (h : s.decicel.toNat ≤ if s.dcSign = 1#1 then below else above) :
    -(below : Int) ≤ signedDecicel s ∧ signedDecicel s ≤ above := by
  by_cases hsign : s.dcSign = 1#1
  · rw [if_pos hsign] at h
    rw [signedDecicel_negative hsign]
    omega
  · rw [if_neg hsign] at h
    rw [signedDecicel_positive (bit_eq_zero hsign)]
    omega

/-- Settles O45: in general the invariant bounds the magnitude; after a CHKDECI the reading's range does, with one tenth
more on the negative side. -/
theorem signedValueRange : Obligations.SignedValueRange := by
  refine ⟨fun s => ⟨signedDecicel_negative, signedDecicel_positive⟩, fun s hinv => ?_,
    fun fc s t hok hexec => ?_⟩
  · exact signedDecicel_bounds (by rw [ite_self]; exact hinv.decicelBound)
  · rw [exec_chkdeci_of_crcOk fc hok] at hexec
    cases hexec
    exact signedDecicel_bounds (tenths_of_measToCel_le s.cfg fc s.inputs.spIn)

/-! ### What DECICEL and CHKDECI write -/

/-- Settles O43: the named writes of `exec_decicel` are the record update of the statement; W2 is evaluated. -/
theorem decicelConvertsThePorts : Obligations.DecicelConvertsThePorts :=
  ⟨exec_decicel, by decide⟩

/-- Settles O44: the two sides of the check; V-X2 is evaluated. -/
theorem chkdeciWritesBothGroups : Obligations.ChkdeciWritesBothGroups := by
  refine ⟨?_, by decide +kernel, by decide, by decide⟩
  intro fc s r
  by_cases hok : crcOk s.cfg s.inputs.spIn = true
  · rw [exec_chkdeci_of_crcOk fc hok, if_pos hok]
    rfl
  · rw [exec_of_crcMismatch (.inr ⟨fc, rfl⟩) (Bool.eq_false_of_not_eq_true hok), if_neg hok]
    rfl

/-- Settles O46: both sources evaluated; DECICEL copies the sign of its operands, and minus zero is zero. -/
theorem negativeZeroKeepsItsSign : Obligations.NegativeZeroKeepsItsSign := by
  have hzero : tempToDecicel 1#1 0#12 1#4 = 0#16 := by decide
  refine ⟨hzero, by decide, fun s hsign hwhole hfrac => ?_⟩
  refine ⟨complete (writeTenths s ⟨1#1, 0#12, 1#4⟩), ?_, rfl, hzero, ?_⟩
  · rw [exec_decicel, hsign, hwhole, hfrac]
  · rw [signedDecicel_negative rfl]
    simp [hzero]

end Sys2Proof.Proofs
end

section
/-! PROOFS. The exceptional outcomes of an edge (60_exceptions.md): the words that are no command, the failed CRC check,
and the order of the checks (R82 to R84). -/

namespace Sys2Proof.Proofs

open Sys2Proof.Machine Sys2Proof.Safety

/-! ### The words that are no command -/

/-- A word is rejected exactly if RSV is not 0 or OP is unused (R48). -/
theorem exists_decodeWord_error_iff (w : Word) :
    (∃ e, decodeWord w = .error e) ↔ w.toNat / 8 % 32 ≠ 0 ∨ w.toNat % 8 ∈ [0, 5, 6, 7] := by
  have hnot : (∃ e, decodeWord w = .error e) ↔ ¬∃ i, decodeWord w = .ok i := by
    cases decodeWord w <;> simp
  rw [hnot, exists_decodeWord_ok_iff]
  simp only [List.mem_cons, List.not_mem_nil, or_false]
  omega

/-- The mask 0x00F8 leaves RSV in its place (R46). -/
theorem masked_rsv_eq (w : Word) : w &&& 0x00F8#16 = (fieldRsv w).zeroExtend 16 <<< 3 := by
  ext i hi
  interval_cases i <;> simp [fieldRsv]

/-- The masked bits are 0 exactly if bits 7:3 of the number are (R46). -/
theorem masked_rsv_eq_zero_iff (w : Word) : w &&& 0x00F8#16 = 0#16 ↔ w.toNat / 8 % 32 = 0 := by
  rw [masked_rsv_eq, ← fieldRsv_eq_zero_iff]
  generalize fieldRsv w = rsv
  revert rsv
  decide

/-- OP is unused exactly if the low three bits of the number are 0, 5, 6 or 7 (R47). -/
theorem fieldOp_unused_iff (w : Word) :
    fieldOp w ∈ [0b000#3, 0b101#3, 0b110#3, 0b111#3] ↔ w.toNat % 8 ∈ [0, 5, 6, 7] := by
  rw [fieldOp_eq]
  simp [← BitVec.toNat_inj]

/-- Settles O47: the two conditions on the bits are those under which the decoder rejects the word, and an accepted word
that is rejected raises ILLEGAL. -/
theorem illegalWordWritesOnlyStatus : Obligations.IllegalWordWritesOnlyStatus := by
  intro s hacc hbits
  have hillegal : ∃ e, decodeWord s.inputs.cmd = .error e :=
    (exists_decodeWord_error_iff _).2
      (hbits.imp (mt (masked_rsv_eq_zero_iff _).2) (fieldOp_unused_iff _).1)
  obtain ⟨e, hdec⟩ := hillegal
  exact step_of_illegal hacc hdec

/-! ### The failed check -/

/-- Settles O48: the raise of `exec_of_crcMismatch` is the record update of the statement. -/
theorem crcMismatchWritesOnlyStatus : Obligations.CrcMismatchWritesOnlyStatus :=
  fun fc _ hbad => ⟨exec_of_crcMismatch (.inl ⟨fc, rfl⟩) hbad, exec_of_crcMismatch (.inr ⟨fc, rfl⟩) hbad⟩

/-! ### The order of the checks -/

/-- A command reports CRC_MISMATCH if it is gated and fails its check, and OK otherwise (R81, R83). -/
theorem exec_status {i : Instr} {s t : State} (h : exec i s = .next t) :
    t.status = if crcGated i = true ∧ crcOk s.cfg s.inputs.spIn = false then statusCrcMismatch
      else statusOk := by
  obtain ⟨fc, rfl, rfl⟩ | ⟨fc, rfl, hok, rfl⟩ | ⟨rfl, rfl⟩ | ⟨fc, rfl, hok, rfl⟩ | ⟨hi, hbad, rfl⟩ :=
    exec_cases h
  · simp [crcGated]
  · simp [hok]
  · simp [crcGated]
  · simp [hok]
  · have hgated : crcGated i = true := by
      obtain ⟨fc, rfl⟩ | ⟨fc, rfl⟩ := hi <;> rfl
    simp [hgated, hbad]

/-- The gated commands are those with OP 2 or 4 (R47, R66, R75). -/
theorem crcGated_iff_of_decodeWord {w : Word} {i : Instr} (h : decodeWord w = .ok i) :
    crcGated i = true ↔ w.toNat % 8 ∈ [2, 4] := by
  obtain ⟨hlow, rfl⟩ | ⟨hlow, rfl⟩ | ⟨hlow, rfl⟩ | ⟨hlow, rfl⟩ := decodeWord_ok_cases h
  all_goals
    simp only [crcGated, List.mem_cons, List.not_mem_nil, or_false, true_iff, Bool.false_eq_true, false_iff]
    omega

/-- Settles O49: each case of the edge meets one branch of the chain. A word that decodes passes the RSV and OP checks,
and a rejected one fails one of them. -/
theorem statusFollowsTheOrderOfChecks : Obligations.StatusFollowsTheOrderOfChecks := by
  intro s t h
  obtain ⟨hrst, rfl⟩ | ⟨hrst, hvalid, i, u, hdec, hexec, rfl⟩ | ⟨hrst, hvalid, hillegal, rfl⟩ |
    ⟨hrst, hvalid, rfl⟩ := step_cases h
  · simp [hrst, statusNone]
  · have hlegal : ¬∃ e, decodeWord s.inputs.cmd = .error e := by simp [hdec]
    rw [exists_decodeWord_error_iff, not_or] at hlegal
    obtain ⟨hrsv, hop⟩ := hlegal
    simp only [nextEdge_status, exec_status hexec, crcGated_iff_of_decodeWord hdec, hrst, hvalid,
      if_neg hrsv, if_neg hop]
    rfl
  · rw [exists_decodeWord_error_iff] at hillegal
    simp only [nextEdge_status, raise_eq, respond_status, hrst, hvalid, ← ite_or, if_pos hillegal]
    rfl
  · simp [hrst, hvalid]

end Sys2Proof.Proofs
end

section
/-! PROOFS. The reset state and the reset edge (70_reset_and_hazards.md): what they hold, and what a reset edge forgets
(R94 to R96, R99). -/

namespace Sys2Proof.Proofs

open Sys2Proof.Machine Sys2Proof.Safety

/-! ### The reset state -/

/-- Settles O3: `State.reset` lists the values of R96. -/
theorem resetStateRegisters : Obligations.ResetStateRegisters :=
  ⟨rfl, rfl, rfl, rfl, rfl, rfl, rfl, rfl, rfl⟩

/-- The reset state is what a reset edge makes of it. -/
theorem applyReset_reset : applyReset State.reset = State.reset := rfl

/-- Settles O18: what a reset edge makes of any state meets the invariant, so the reset state does. -/
theorem resetMeetsTheInvariant : Obligations.ResetMeetsTheInvariant := by
  unfold Obligations.ResetMeetsTheInvariant
  rw [← applyReset_reset]
  exact inv_applyReset State.reset

/-! ### The reset edge -/

/-- Settles O4: the edge resets and moves on, and moving on leaves the registers and the parameters. -/
theorem resetEdgeClearsEveryRegister : Obligations.ResetEdgeClearsEveryRegister :=
  fun _ hrst => ⟨_, step_of_reset hrst, by simp [statusNone]⟩

/-- A reset keeps nothing but the parameters and the environment (R94, R99). -/
theorem applyReset_congr {s s' : State} (h : sameOutside s s') : applyReset s = applyReset s' := by
  obtain ⟨hcfg, hhost, hdraw⟩ := h
  simp only [applyReset, hcfg, hhost, hdraw]

/-- A reset edge answers alike for two blocks built alike that face the same ports. -/
theorem step_congr_of_reset {s s' : State} (hsame : sameOutside s s') (hrst : s.inputs.rst = 1#1) :
    step s = step s' := by
  have hrst' : s'.inputs.rst = 1#1 := by
    obtain ⟨-, hhost, hdraw⟩ := hsame
    rwa [← inputs_congr hhost hdraw]
  rw [step_of_reset hrst, step_of_reset hrst', applyReset_congr hsame]

/-- Two runs of which the first edge answers the same next state are the same. -/
theorem run_succ_congr {s s' : State} (h : step s = step s') (k : Nat) :
    Host.Core.run core (k + 1) s = Host.Core.run core (k + 1) s' := by
  obtain ⟨u, hstep⟩ := everyEdgeAnswersANextState s
  rw [run_succ_of_step hstep, run_succ_of_step (h.symm.trans hstep)]

/-- Two runs that begin with a reset edge, of blocks built alike that face the same ports, are the same. -/
theorem run_congr_of_reset {s s' : State} (hsame : sameOutside s s') (hrst : s.inputs.rst = 1#1) (k : Nat) :
    Host.Core.run core (k + 1) s = Host.Core.run core (k + 1) s' :=
  run_succ_congr (step_congr_of_reset hsame hrst) k

/-- The block at power-up differs from the reset state in its registers only (R95). -/
theorem powerUp_sameOutside_reset (c : Config) (host : List Inputs) :
    sameOutside (State.powerUp c host) { State.reset with cfg := c, host := host } :=
  ⟨rfl, rfl, rfl⟩

/-- Settles O5: the power-up block is one of the states that a reset edge makes alike. -/
theorem resetErasesThePast : Obligations.ResetErasesThePast :=
  ⟨fun k _ _ hsame hrst => run_congr_of_reset hsame hrst k,
    fun k c e rest hrst =>
      run_congr_of_reset (powerUp_sameOutside_reset c (e :: rest)) (by rwa [inputs_of_host rfl]) k⟩

end Sys2Proof.Proofs
end

section
/-! PROOFS. The block as it is built (R7 to R9), and how an edge draws on the environment (the model's own: log 1). -/

namespace Sys2Proof.Proofs

open Sys2Proof.Machine

/-- Settles O1: the default request is admitted, and the four parameters of `State.reset` are the ones it asks for. -/
theorem resetHasTheDefaultParameters : Obligations.ResetHasTheDefaultParameters :=
  ⟨rfl, rfl, rfl, rfl, rfl⟩

/-- An edge draws one free sample where no edge is listed, and none where one is: the draw counter's half of what
`step_host` says of the list. -/
theorem step_draw {s t : State} (h : step s = .next t) :
    t.draw = if s.host.isEmpty then s.draw + 1 else s.draw := by
  obtain ⟨-, rfl⟩ | ⟨-, -, i, u, -, hexec, rfl⟩ | ⟨-, -, -, rfl⟩ | ⟨-, -, rfl⟩ := step_cases h
  · simp
  · obtain ⟨-, hhost, hdraw⟩ := exec_keeps_outside hexec
    rw [nextEdge_draw, hhost, hdraw]
  · simp
  · simp

/-- Settles O9: the two parts of the environment, each followed through the four kinds of edge. -/
theorem edgeConsumesOneInput : Obligations.EdgeConsumesOneInput :=
  fun _ _ h => ⟨step_host h, step_draw h⟩

/-- A witness for O9 where no edge is listed: the first edge after `State.reset` takes the free sample number 0. -/
theorem exists_step_reset_draw : ∃ t, step State.reset = .next t ∧ t.host = [] ∧ t.draw = 1 := by
  obtain ⟨t, hstep⟩ := everyEdgeAnswersANextState State.reset
  obtain ⟨hhost, hdraw⟩ := edgeConsumesOneInput _ _ hstep
  exact ⟨t, hstep, hhost, hdraw⟩

end Sys2Proof.Proofs
end
